-- ==== Sys2Proof/Word.lean ====
section
/-! DEFINITION. The bit-vector types the spec's widths call for (R6, R7, R12, R51). -/

namespace Sys2Proof

/-- A bus word: one register, one write operand or one read response (R7, R41). -/
abbrev Word := BitVec 32

/-- A wire byte, a sequence or complement byte, or a window byte offset (R6, R34). -/
abbrev Byte := BitVec 8

/-- A CRC value or a transmitted checksum (R6). -/
abbrev Half := BitVec 16

/-- An operation descriptor (R51). -/
abbrev Descriptor := BitVec 12

end Sys2Proof
end

