-- ==== Sys2Proof/Config.lean ====
section
/-! DEFINITION. The two parameters the spec leaves open (R8). Both are opaque: nothing can be proved of their values, so a
claim that mentions one holds whatever the platform chose. -/

namespace Sys2Proof

/-- `TMO_MAX_RESET`, the reset value of TMO_MAX.MAX (R8, R33; spec/92 D21 OPEN; log entry 1). -/
opaque Config.tmoMaxReset : Word

/-- Which 256-byte page of the system map holds the window (R8; spec/92 D2 OPEN; log entry 2). -/
opaque Config.blockBasePage : Nat

/-- `BLOCK_BASE`, the system address at which the window starts: any value aligned to 256 bytes (R8, R34). -/
def Config.blockBase : Nat := 256 * Config.blockBasePage

end Sys2Proof
end

