-- ==== Sys2Proof/Syntax.lean ====
section
/-! DEFINITION. The syntax of the CVT block's operations: the eleven registers, the 25 operations of the opcode map (R54),
what an agent presents (R51), what decoding one can yield (R52), and the assembler's lines (R59, R60). -/

namespace Sys2Proof

/-- The eleven registers of the window (R20 to R31). -/
inductive Reg where
  | crcCtrl | crcData | crcValue
  | pktSeq | pktRxcrc | pktStatus | pktFrame
  | tmoCtrl | tmoMax | tmoCount | tmoStatus
  deriving DecidableEq, Repr

/-- The 25 operations of the block, one constructor per row of the opcode map (R54).
A bus write carries its 32-bit operand whole (R51); which of its bits matter is the meaning's affair (R53). -/
inductive Instr where
  /-- RD.CRC_CTRL (R68) -/
  | rdCrcCtrl
  /-- WR.CRC_CTRL (R67) -/
  | wrCrcCtrl (wdata : Word)
  /-- RD.CRC_DATA (R70) -/
  | rdCrcData
  /-- WR.CRC_DATA (R69) -/
  | wrCrcData (wdata : Word)
  /-- RD.CRC_VALUE (R71) -/
  | rdCrcValue
  /-- WR.CRC_VALUE (R72) -/
  | wrCrcValue (wdata : Word)
  /-- RD.PKT_SEQ (R81) -/
  | rdPktSeq
  /-- WR.PKT_SEQ (R80) -/
  | wrPktSeq (wdata : Word)
  /-- RD.PKT_RXCRC (R83) -/
  | rdPktRxcrc
  /-- WR.PKT_RXCRC (R82) -/
  | wrPktRxcrc (wdata : Word)
  /-- RD.PKT_STATUS (R84) -/
  | rdPktStatus
  /-- WR.PKT_STATUS (R85) -/
  | wrPktStatus (wdata : Word)
  /-- RD.PKT_FRAME (R87) -/
  | rdPktFrame
  /-- WR.PKT_FRAME (R86) -/
  | wrPktFrame (wdata : Word)
  /-- RD.TMO_CTRL (R95) -/
  | rdTmoCtrl
  /-- WR.TMO_CTRL (R94) -/
  | wrTmoCtrl (wdata : Word)
  /-- RD.TMO_MAX (R97) -/
  | rdTmoMax
  /-- WR.TMO_MAX (R96) -/
  | wrTmoMax (wdata : Word)
  /-- RD.TMO_COUNT (R98) -/
  | rdTmoCount
  /-- WR.TMO_COUNT (R99) -/
  | wrTmoCount (wdata : Word)
  /-- RD.TMO_STATUS (R100) -/
  | rdTmoStatus
  /-- WR.TMO_STATUS (R101) -/
  | wrTmoStatus (wdata : Word)
  /-- TICK, one tick of the external periodic timer (R92) -/
  | tick
  /-- ACT, one byte received by the serial receiver (R93) -/
  | act
  /-- RESET (R115) -/
  | reset
  deriving DecidableEq, Repr

/-- What an agent presents to the block: a descriptor and, for a bus write, the 32-bit operand (R51).
`wdata` is the operand exactly when CLASS is 01; for the other classes the spec gives no operand, nothing
looks at the field, and its canonical value is 0 (`Request.wf`, log entry 4). -/
structure Request where
  desc  : Descriptor
  wdata : Word
  deriving DecidableEq, Repr

/-- The causes of a bus error (R102). -/
inductive BusErrorCause where
  /-- SIZE is byte or halfword; code 1 -/
  | badSize
  /-- a word access whose offset has low bits other than 00; code 2 -/
  | misaligned
  /-- an aligned word access to an offset that holds no register; code 3 -/
  | unmapped
  deriving DecidableEq, Repr

/-- Why a descriptor spells no operation (R52, R55, R104). -/
inductive RefuseReason where
  /-- CLASS is 11 -/
  | reservedClass
  /-- an event (CLASS 10) whose SIZE is not 00 -/
  | eventSize
  /-- an event with SIZE 00 and event number 3 or more -/
  | reservedEvent
  /-- a bus operation with SIZE 11 -/
  | reservedSize
  deriving DecidableEq, Repr

/-- What decoding a request yields (R52): an operation, a bus error, or a refusal. -/
inductive Decoded where
  | op (i : Instr)
  | busError (cause : BusErrorCause)
  | refuse (why : RefuseReason)
  deriving DecidableEq, Repr

/-- The packet kinds the framing byte selects (R77). -/
inductive Kind where
  | other | short | long | eot | can
  deriving DecidableEq, Repr

/-- The sizes a raw assembler form can spell (R59); SIZE 11 has no spelling. -/
inductive RawSize where
  | byte | half | word
  deriving DecidableEq, Repr

/-- One line of the assembler: the operation lines and raw forms of R59, the pseudo-operations of R60, and
the line that holds no operation (blank, or a comment only). Numerals are unbounded here; `AsmLine.wf` says
which of them the assembler accepts. -/
inductive AsmLine where
  | blank
  | rd (r : Reg)
  | wr (r : Reg) (value : Nat)
  | rdRaw (size : RawSize) (off : Nat)
  | wrRaw (size : RawSize) (off value : Nat)
  | tick
  | act
  | reset
  | crcinit
  | crcfeed (b : Nat)
  | crcblk (bs : List Nat)
  | crcfill (b n : Nat)
  | ldseq (s c : Nat)
  | ldrx (hi lo : Nat)
  | ldframe (b : Nat)
  | tmoarm (m : Nat)
  | tmoclr
  | tmostop
  | tickack
  deriving DecidableEq, Repr

end Sys2Proof
end

