-- ==== Sys2Proof/WellFormed.lean ====
section
/-! DEFINITION. The checks on syntax that its types do not already make. An `Instr` needs none: its only operand is a
32-bit vector, and every 32-bit value is a legal operand of every write (R42, R51, R53). -/

namespace Sys2Proof

/-- Every term of `Instr` is an operation of the opcode map with an operand of the spec's width (R51, R54). -/
def Instr.wf : Instr → Bool
  | .rdCrcCtrl | .rdCrcData | .rdCrcValue | .rdPktSeq | .rdPktRxcrc | .rdPktStatus | .rdPktFrame => true
  | .rdTmoCtrl | .rdTmoMax | .rdTmoCount | .rdTmoStatus => true
  | .wrCrcCtrl _ | .wrCrcData _ | .wrCrcValue _ | .wrPktSeq _ | .wrPktRxcrc _ | .wrPktStatus _ | .wrPktFrame _ => true
  | .wrTmoCtrl _ | .wrTmoMax _ | .wrTmoCount _ | .wrTmoStatus _ => true
  | .tick | .act | .reset => true

/-- A request is canonical when it carries an operand only with a bus write, "exactly when CLASS = 01" (R51). -/
def Request.wf (r : Request) : Bool :=
  r.desc.extractLsb' 8 2 == 0b01#2 || r.wdata == 0#32

/-- `value` must lie in 0 to 2^32 - 1 (R59). -/
def asmValueOk (v : Nat) : Bool := decide (v < 2 ^ 32)

/-- A raw offset lies in 0 to 255 (R59), and so does each operand for which R60 says "in 0..255". -/
def asmByteOk (b : Nat) : Bool := decide (b < 256)

/-- The lines the assembler accepts; it rejects every other (R59, R60). An operand for which R60 states no range of
its own but that becomes the value of a `wr` line has that line's range; `crcblk` lists at least one byte, as its form
`b0, b1, ..., bn-1` shows (log entry 7). DESIGN CHOICE (log entry 7): `crcfill`'s count n, for which R60 states no range
and which becomes no value, may be any natural number, 0 included, which assembles to no operation. -/
def AsmLine.wf : AsmLine → Bool
  | .blank | .rd _ | .tick | .act | .reset | .crcinit | .tmoclr | .tmostop | .tickack => true
  | .wr _ v => asmValueOk v
  | .rdRaw _ off => asmByteOk off
  | .wrRaw _ off v => asmByteOk off && asmValueOk v
  | .crcfeed b => asmByteOk b
  | .crcblk bs => !bs.isEmpty && bs.all asmValueOk
  | .crcfill b _ => asmValueOk b
  | .ldseq s c => asmByteOk s && asmByteOk c
  | .ldrx hi lo => asmByteOk hi && asmByteOk lo
  | .ldframe b => asmValueOk b
  | .tmoarm m => asmValueOk m

end Sys2Proof
end

