-- ==== Sys2Proof/Decode.lean ====
section
/-! DEFINITION. The decoder (R52), written by the descriptor's fields, and after it the encoder (R54), written from the opcode
map's constants; the two are independent, so their agreement is a claim. Then the requests that the host's table
words stand for. -/

namespace Sys2Proof

/-! ### The descriptor's fields (R51) -/

/-- SIZE, bits 11:10 (R51). -/
def Request.size (r : Request) : BitVec 2 := r.desc.extractLsb' 10 2

/-- CLASS, bits 9:8 (R51). -/
def Request.cls (r : Request) : BitVec 2 := r.desc.extractLsb' 8 2

/-- SEL, bits 7:0 (R51). -/
def Request.sel (r : Request) : Byte := r.desc.extractLsb' 0 8

/-! ### The window's map (R35) -/

/-- The byte offset of each register in the window (R20 to R31, R35). -/
def Reg.offset : Reg → Byte
  | .crcCtrl => 0x00#8
  | .crcData => 0x04#8
  | .crcValue => 0x08#8
  | .pktSeq => 0x0C#8
  | .pktRxcrc => 0x10#8
  | .pktStatus => 0x14#8
  | .pktFrame => 0x18#8
  | .tmoCtrl => 0x20#8
  | .tmoMax => 0x24#8
  | .tmoCount => 0x28#8
  | .tmoStatus => 0x2C#8

/-- Every register, in the order of the window's map (R35). -/
def Reg.all : List Reg :=
  [.crcCtrl, .crcData, .crcValue, .pktSeq, .pktRxcrc, .pktStatus, .pktFrame, .tmoCtrl, .tmoMax, .tmoCount, .tmoStatus]

/-- The register at a window offset; offset 0x1C, offsets 0x30 to 0xFC and unaligned offsets hold none (R27, R35). -/
def regAt (off : Byte) : Option Reg := Reg.all.find? (fun r => r.offset == off)

/-- The bus read of a register (R54). -/
def readOf : Reg → Instr
  | .crcCtrl => .rdCrcCtrl
  | .crcData => .rdCrcData
  | .crcValue => .rdCrcValue
  | .pktSeq => .rdPktSeq
  | .pktRxcrc => .rdPktRxcrc
  | .pktStatus => .rdPktStatus
  | .pktFrame => .rdPktFrame
  | .tmoCtrl => .rdTmoCtrl
  | .tmoMax => .rdTmoMax
  | .tmoCount => .rdTmoCount
  | .tmoStatus => .rdTmoStatus

/-- The bus write of a word to a register (R54). -/
def writeOf : Reg → Word → Instr
  | .crcCtrl => .wrCrcCtrl
  | .crcData => .wrCrcData
  | .crcValue => .wrCrcValue
  | .pktSeq => .wrPktSeq
  | .pktRxcrc => .wrPktRxcrc
  | .pktStatus => .wrPktStatus
  | .pktFrame => .wrPktFrame
  | .tmoCtrl => .wrTmoCtrl
  | .tmoMax => .wrTmoMax
  | .tmoCount => .wrTmoCount
  | .tmoStatus => .wrTmoStatus

/-! ### Decoding (R52) -/

/-- An event descriptor: SIZE must be 00, and the event number is 0 TICK, 1 ACTIVITY or 2 RESET (R51, R52). -/
def decodeEvent (size : BitVec 2) (sel : Byte) : Decoded :=
  if size ≠ 0b00#2 then .refuse .eventSize
  else if sel = 0#8 then .op .tick
  else if sel = 1#8 then .op .act
  else if sel = 2#8 then .op .reset
  else .refuse .reservedEvent

/-- A bus descriptor: SIZE 11 spells no access; then the first failing check gives the cause, in the order
BADSIZE, MISALIGNED, UNMAPPED (R52, R103). -/
def decodeBus (size : BitVec 2) (sel : Byte) (access : Reg → Instr) : Decoded :=
  if size = 0b11#2 then .refuse .reservedSize
  else if size ≠ 0b10#2 then .busError .badSize
  else if sel.extractLsb' 0 2 ≠ 0b00#2 then .busError .misaligned
  else match regAt sel with
    | some r => .op (access r)
    | none => .busError .unmapped

/-- Decoding, total on every request (R52). -/
def decode (r : Request) : Decoded :=
  if r.cls = 0b11#2 then .refuse .reservedClass
  else if r.cls = 0b10#2 then decodeEvent r.size r.sel
  else if r.cls = 0b01#2 then decodeBus r.size r.sel (fun g => writeOf g r.wdata)
  else decodeBus r.size r.sel readOf

/-- The code of a bus error's cause (R102). -/
def BusErrorCause.code : BusErrorCause → Nat
  | .badSize => 1
  | .misaligned => 2
  | .unmapped => 3

/-! ### Encoding (R54) -/

/-- The descriptor of each operation, as the opcode map lists it (R54). -/
def Instr.descriptor : Instr → Descriptor
  | .rdCrcCtrl => 0x800#12
  | .wrCrcCtrl _ => 0x900#12
  | .rdCrcData => 0x804#12
  | .wrCrcData _ => 0x904#12
  | .rdCrcValue => 0x808#12
  | .wrCrcValue _ => 0x908#12
  | .rdPktSeq => 0x80C#12
  | .wrPktSeq _ => 0x90C#12
  | .rdPktRxcrc => 0x810#12
  | .wrPktRxcrc _ => 0x910#12
  | .rdPktStatus => 0x814#12
  | .wrPktStatus _ => 0x914#12
  | .rdPktFrame => 0x818#12
  | .wrPktFrame _ => 0x918#12
  | .rdTmoCtrl => 0x820#12
  | .wrTmoCtrl _ => 0x920#12
  | .rdTmoMax => 0x824#12
  | .wrTmoMax _ => 0x924#12
  | .rdTmoCount => 0x828#12
  | .wrTmoCount _ => 0x928#12
  | .rdTmoStatus => 0x82C#12
  | .wrTmoStatus _ => 0x92C#12
  | .tick => 0x200#12
  | .act => 0x201#12
  | .reset => 0x202#12

/-- The operand a bus write carries; reads and events have none (R51). -/
def Instr.operand : Instr → Option Word
  | .wrCrcCtrl w | .wrCrcData w | .wrCrcValue w => some w
  | .wrPktSeq w | .wrPktRxcrc w | .wrPktStatus w | .wrPktFrame w => some w
  | .wrTmoCtrl w | .wrTmoMax w | .wrTmoCount w | .wrTmoStatus w => some w
  | .rdCrcCtrl | .rdCrcData | .rdCrcValue | .rdPktSeq | .rdPktRxcrc | .rdPktStatus | .rdPktFrame => none
  | .rdTmoCtrl | .rdTmoMax | .rdTmoCount | .rdTmoStatus => none
  | .tick | .act | .reset => none

/-- The request that presents an operation: its descriptor, and its operand where it has one (R51, R54). -/
def encode (i : Instr) : Request := ⟨i.descriptor, i.operand.getD 0#32⟩

/-! ### Table words
The spec stores no operation anywhere (R50), so it gives a request no layout in memory. Log entry 4 (DESIGN CHOICE):
as one number, a request is the descriptor in bits 11:0, zeros in bits 15:12 and the operand in bits 47:16. -/

/-- A request as one number (log entry 4). -/
def tableWord (r : Request) : Nat := r.desc.toNat + 65536 * r.wdata.toNat

/-- The request a table word of `nbits` bits stands for, or none where the word is no descriptor (a bit set in
15:12 or above 47) or carries an operand no bus write takes (log entry 4). -/
def tableRequest (nbits w : Nat) : Option Request :=
  let v := w % 2 ^ nbits
  let r : Request := ⟨BitVec.ofNat 12 v, BitVec.ofNat 32 (v / 65536)⟩
  if v / 4096 % 16 = 0 ∧ v < 2 ^ 48 ∧ r.wf = true then some r else none

/-- The operation the decoder reads from a table word (log entry 4). -/
def decodeTableWord (nbits w : Nat) : Option Instr :=
  match tableRequest nbits w with
  | none => none
  | some r =>
    match decode r with
    | .op i => some i
    | .busError _ => none
    | .refuse _ => none

end Sys2Proof
end

