-- ==== Sys2Proof/Machine/State.lean ====
section
/-! DEFINITION. The machine's state as plain data: the block's nine stored elements (R15), the operations the agents have
yet to apply (R9, R46), and what the operations so far yielded (R10, R11). -/

namespace Sys2Proof.Machine

/-- The block's whole architectural state, "nothing else is stored" (R15). -/
structure Block where
  /-- `CRC`, the CRC accumulation register, 16 bits -/
  crc   : Half
  /-- `SEQ`, the packet's sequence byte -/
  seq   : Byte
  /-- `COMP`, the packet's sequence-complement byte -/
  comp  : Byte
  /-- `RXCRC`, the packet's transmitted checksum, 16 bits -/
  rxcrc : Half
  /-- `FRAME`, the packet's framing byte -/
  frame : Byte
  /-- `EN`, the timeout counter's enable, 1 bit -/
  en    : Bool
  /-- `MAX`, the retry threshold, 32 bits -/
  max   : Word
  /-- `COUNT`, the ticks since activity, 32 bits -/
  count : Word
  /-- `TICKF`, the polled tick flag, 1 bit -/
  tickf : Bool
  deriving DecidableEq, Repr

/-- What one operation yields (R10). -/
inductive OpOutcome where
  /-- `OK(rdata)`: rdata for a bus read, absent for a write or an event -/
  | ok (rdata : Option Word)
  /-- `ERR(cause)`: a bus error, the block's state unchanged; this is the model's fault mark -/
  | err (cause : BusErrorCause)
  /-- `REFUSED`: the descriptor spells no operation; this is the model's refusal mark -/
  | refused (why : RefuseReason)
  deriving DecidableEq, Repr

/-- The machine: the block, and the model's bookkeeping around it. -/
structure State where
  /-- the block's architectural state (R15) -/
  block    : Block
  /-- the operations still to take effect, first one first, in the single total order of R46; the agents
  (R9) wrote it, the block does not (MODEL bookkeeping, log entry 3) -/
  pending  : List Request
  /-- what each operation so far yielded, the latest first (R10, R11; MODEL bookkeeping, log entry 3) -/
  outcomes : List OpOutcome
  deriving DecidableEq, Repr

/-- The outcome `ERR(cause)` of one operation (R10, R102). -/
inductive Fault where
  /-- `operate` answers it for an access that fails a check of R52; `step` never ends in it, since a bus error is
  complete when its response is given and the next operation proceeds normally (R106): it records `ERR(cause)` and
  goes on. Safe: the block's state is unchanged, as R102 says. -/
  | busError (cause : BusErrorCause)
  deriving DecidableEq, Repr

/-- Why there is no next state. -/
inductive Refusal where
  /-- An operation this model gives no meaning yet; no arm of `exec` raises it. Safe. -/
  | notModelled (mnemonic : String)
  /-- `operate` and `step` raise it for a descriptor that spells no operation, "no bus can present it and no input
  line delivers it" (R104). Safe: the spec gives it no meaning. -/
  | reservedDescriptor (why : RefuseReason)
  deriving DecidableEq, Repr

/-- The reset value of every stored element (R33); `MAX` takes the open parameter (log entry 1). -/
def Block.reset : Block where
  crc := 0x0000#16
  seq := 0x00#8
  comp := 0x00#8
  rxcrc := 0x0000#16
  frame := 0x00#8
  en := false
  max := Config.tmoMaxReset
  count := 0x00000000#32
  tickf := false

/-- The machine right after reset (R33, R116): no operation has been presented and none has yielded anything
(log entry 3). -/
def State.reset : State where
  block := Block.reset
  pending := []
  outcomes := []

end Sys2Proof.Machine
end

