-- ==== Sys2Proof/Machine/Ops.lean ====
section
/-! DEFINITION. The operations every meaning is built from: the CRC update, how an operation ends (a read's response, a
write's new block, a bus error), and the views of the outcomes. -/

namespace Sys2Proof.Machine

/-! ### The CRC function (R61, R62) -/

/-- The only initial value, 0x0000 (R2, R67). -/
def crcInit : Half := 0x0000#16

/-- One of the eight shifts of the per-byte update, with feedback 0x1021 (R61). -/
def crcShift (c : Half) : Half :=
  if c.getLsbD 15 then (c <<< 1) ^^^ 0x1021#16 else c <<< 1

/-- `n` shifts in a row (R61, "repeat 8 times"). -/
def crcShifts : Nat → Half → Half
  | 0, c => c
  | n + 1, c => crcShifts n (crcShift c)

/-- `crc_step`: the byte enters the high byte of the register, then eight shifts (R61). -/
def crcStep (c : Half) (b : Byte) : Half :=
  crcShifts 8 (c ^^^ (b.setWidth 16 <<< 8))

/-- The update folded over a byte sequence, in order (R62). -/
def crcFold (c : Half) (bytes : List Byte) : Half := bytes.foldl crcStep c

/-- `crc16`, the fold from the initial value (R62). -/
def crc16 (bytes : List Byte) : Half := crcFold crcInit bytes

/-- The same division fed one bit at a time: the register's top bit and the incoming bit decide the feedback (R39). -/
def crcBit (c : Half) (bit : Bool) : Half :=
  if c.getLsbD 15 != bit then (c <<< 1) ^^^ 0x1021#16 else c <<< 1

/-- The bits of a byte in the order the division sees them: bit 7 first, bit 0 last (R39). -/
def msbFirst (b : Byte) : List Bool :=
  [b.getLsbD 7, b.getLsbD 6, b.getLsbD 5, b.getLsbD 4, b.getLsbD 3, b.getLsbD 2, b.getLsbD 1, b.getLsbD 0]

/-! ### How an operation ends -/

/-- One more outcome; nothing else changes (R10). -/
def State.yielding (s : State) (o : OpOutcome) : State := { s with outcomes := o :: s.outcomes }

/-- A bus read returns a word and leaves the state unchanged (R45). -/
def returnRead (v : Word) (s : State) : Host.Outcome State Fault Refusal :=
  .next (s.yielding (.ok (some v)))

/-- A write or an event puts all its assignments in force together and returns no data (R10, R13). -/
def commit (b : Block) (s : State) : Host.Outcome State Fault Refusal :=
  .next ({ s with block := b }.yielding (.ok none))

/-- A bus error is complete when its `ERR(cause)` response is given: no state is saved, no mode changes, nothing is
entered, and the next operation proceeds normally (R102, R106). It is the block's only exception. -/
def takeBusError (cause : BusErrorCause) (s : State) : State := s.yielding (.err cause)

/-! ### Views of the outcomes (R10, R11, R18) -/

/-- The index of the next operation in the run, the only notion of position there is (R18). -/
def State.position (s : State) : Nat := s.outcomes.length

/-- The list of outcomes a run yields, the first operation's first (R11). -/
def State.yielded (s : State) : List OpOutcome := s.outcomes.reverse

/-- The cause a fault mark carries, if the outcome is one (R10). -/
def OpOutcome.faultMark : OpOutcome → Option BusErrorCause
  | .ok _ => none
  | .err c => some c
  | .refused _ => none

/-- The reason a refusal mark carries, if the outcome is one (R10). -/
def OpOutcome.refusalMark : OpOutcome → Option RefuseReason
  | .ok _ => none
  | .err _ => none
  | .refused w => some w

/-- The fault marks, one for every `ERR` (R10), the latest first. -/
def State.faultMarks (s : State) : List BusErrorCause := s.outcomes.filterMap OpOutcome.faultMark

/-- The refusal marks, one for every `REFUSED` (R10), the latest first. -/
def State.refusalMarks (s : State) : List RefuseReason := s.outcomes.filterMap OpOutcome.refusalMark

end Sys2Proof.Machine
end

