-- ==== Sys2Proof/Machine/Flags.lean ====
section
/-! DEFINITION. The derived values: none is stored, each is a function of the block at the moment it is read (R16). -/

namespace Sys2Proof.Machine

/-! ### Wire byte values (R57) -/

/-- SOH: 128-byte data packet header. -/
def wireSoh : Byte := 0x01#8
/-- STX: 1024-byte data packet header. -/
def wireStx : Byte := 0x02#8
/-- EOT: end of transmission. -/
def wireEot : Byte := 0x04#8
/-- ACK: acknowledge. -/
def wireAck : Byte := 0x06#8
/-- NAK: negative acknowledge, retry. -/
def wireNak : Byte := 0x15#8
/-- CAN: cancel. -/
def wireCan : Byte := 0x18#8
/-- 'C': request checksum-mode transfer start. -/
def wireStart : Byte := 0x43#8
/-- The bootloader's own discovery probe. -/
def wireProbe : Byte := 0x52#8

/-! ### The packet validator (R73 to R77) -/

/-- `SEQ_OK`: the two bytes, zero-extended to 9 bits, add up to 255 (R73). -/
def seqOk (b : Block) : Bool := b.seq.setWidth 9 + b.comp.setWidth 9 == 255#9

/-- `CRC_OK`: the CRC register equals the transmitted checksum (R74). -/
def crcOk (b : Block) : Bool := b.crc == b.rxcrc

/-- `VALID` (R75). -/
def valid (b : Block) : Bool := seqOk b && crcOk b

/-- `HEADER`: valid, with sequence 0 (R76). -/
def header (b : Block) : Bool := valid b && b.seq == 0x00#8

/-- `DATA`: valid, with another sequence (R76). -/
def data (b : Block) : Bool := valid b && b.seq != 0x00#8

/-- The packet kind a framing byte selects (R77). -/
def kindOf (frame : Byte) : Kind :=
  if frame = wireSoh then .short
  else if frame = wireStx then .long
  else if frame = wireEot then .eot
  else if frame = wireCan then .can
  else .other

/-- The code of each kind, in 4 bits; 5 to 15 are never produced (R77). -/
def kindCode : Kind → BitVec 4
  | .other => 0#4
  | .short => 1#4
  | .long => 2#4
  | .eot => 3#4
  | .can => 4#4

/-- The payload length of each kind, in bytes (R6, R77). -/
def payloadLength : Kind → Nat
  | .short => 128
  | .long => 1024
  | .eot | .can | .other => 0

/-- `KIND(FRAME)`, 4 bits (R77). -/
def kindField (frame : Byte) : BitVec 4 := kindCode (kindOf frame)

/-- `PLEN(FRAME)`, 11 bits (R77). -/
def plenField (frame : Byte) : BitVec 11 := BitVec.ofNat 11 (payloadLength (kindOf frame))

/-! ### The timeout counter (R88) -/

/-- `EXCEEDED`: the count is above the threshold, unsigned, whatever `EN` is (R88). -/
def exceeded (b : Block) : Bool := b.max.ult b.count

end Sys2Proof.Machine
end

