-- ==== Sys2Proof/Machine/Operands.lean ====
section
/-! DEFINITION. Operand assembly (R53): the field each write takes from its operand (R56), and the word each register
assembles for a read, with 0 in every reserved bit and in every W1 or WO field (R42, R43). -/

namespace Sys2Proof.Machine

/-! ### Fields of a write's operand (R56) -/

/-- CRC_CTRL.INIT, `wdata[0]`. -/
def initField (w : Word) : Bool := w.getLsbD 0
/-- CRC_DATA.DATA, `wdata[7:0]`. -/
def dataField (w : Word) : Byte := w.extractLsb' 0 8
/-- PKT_SEQ.SEQ, `wdata[7:0]`. -/
def seqField (w : Word) : Byte := w.extractLsb' 0 8
/-- PKT_SEQ.COMP, `wdata[15:8]`. -/
def compField (w : Word) : Byte := w.extractLsb' 8 8
/-- PKT_RXCRC.RXCRC, `wdata[15:0]`. -/
def rxcrcField (w : Word) : Half := w.extractLsb' 0 16
/-- PKT_FRAME.FRAME, `wdata[7:0]`. -/
def frameField (w : Word) : Byte := w.extractLsb' 0 8
/-- TMO_CTRL.EN, `wdata[0]`. -/
def enField (w : Word) : Bool := w.getLsbD 0
/-- TMO_CTRL.CLR, `wdata[1]`. -/
def clrField (w : Word) : Bool := w.getLsbD 1
/-- TMO_STATUS.TICKF clear, `wdata[1]`. -/
def tickfClearField (w : Word) : Bool := w.getLsbD 1

/-! ### The word each register reads as (R20 to R31) -/

/-- CRC_CTRL reads 0: INIT is a command bit (R20, R68). -/
def readCrcCtrl (_ : Block) : Word := 0#32
/-- CRC_DATA reads 0: DATA is write-only (R21, R70). -/
def readCrcData (_ : Block) : Word := 0#32
/-- CRC_VALUE: `CRC` in bits 15:0 (R22, R71). -/
def readCrcValue (b : Block) : Word := b.crc.setWidth 32
/-- PKT_SEQ: `COMP` in bits 15:8, `SEQ` in bits 7:0 (R23, R81). -/
def readPktSeq (b : Block) : Word := (b.comp ++ b.seq).setWidth 32
/-- PKT_RXCRC: `RXCRC` in bits 15:0 (R24, R83). -/
def readPktRxcrc (b : Block) : Word := b.rxcrc.setWidth 32
/-- PKT_STATUS: DATA, HEADER, VALID, CRC_OK, SEQ_OK in bits 4 to 0 (R25, R84). -/
def readPktStatus (b : Block) : Word :=
  (BitVec.ofBool (data b) ++ BitVec.ofBool (header b) ++ BitVec.ofBool (valid b) ++ BitVec.ofBool (crcOk b)
    ++ BitVec.ofBool (seqOk b)).setWidth 32
/-- PKT_FRAME: PLEN in bits 26:16, KIND in bits 11:8, FRAME in bits 7:0 (R26, R87). -/
def readPktFrame (b : Block) : Word :=
  0#5 ++ plenField b.frame ++ 0#4 ++ kindField b.frame ++ b.frame
/-- TMO_CTRL: `EN` in bit 0; CLR reads 0 (R28, R95). -/
def readTmoCtrl (b : Block) : Word := (BitVec.ofBool b.en).setWidth 32
/-- TMO_MAX: `MAX` (R29, R97). -/
def readTmoMax (b : Block) : Word := b.max
/-- TMO_COUNT: `COUNT` (R30, R98). -/
def readTmoCount (b : Block) : Word := b.count
/-- TMO_STATUS: `TICKF` in bit 1, EXCEEDED in bit 0 (R31, R100). -/
def readTmoStatus (b : Block) : Word :=
  (BitVec.ofBool b.tickf ++ BitVec.ofBool (exceeded b)).setWidth 32

/-- The word a bus read of a register returns in a block state (R44, R53). -/
def readReg : Reg → Block → Word
  | .crcCtrl => readCrcCtrl
  | .crcData => readCrcData
  | .crcValue => readCrcValue
  | .pktSeq => readPktSeq
  | .pktRxcrc => readPktRxcrc
  | .pktStatus => readPktStatus
  | .pktFrame => readPktFrame
  | .tmoCtrl => readTmoCtrl
  | .tmoMax => readTmoMax
  | .tmoCount => readTmoCount
  | .tmoStatus => readTmoStatus

end Sys2Proof.Machine
end

