-- ==== Sys2Proof/Machine/Crc.lean ====
section
/-! DEFINITION. The six operations on the CRC registers (R67 to R72). -/

namespace Sys2Proof.Machine

/-- RD.CRC_CTRL returns 0 in every state (R68). -/
def execRdCrcCtrl (s : State) : Host.Outcome State Fault Refusal := returnRead (readCrcCtrl s.block) s

/-- WR.CRC_CTRL: INIT = 1 sets `CRC` to its initial value; INIT = 0 does nothing (R67). -/
def execWrCrcCtrl (w : Word) (s : State) : Host.Outcome State Fault Refusal :=
  commit (if initField w then { s.block with crc := crcInit } else s.block) s

/-- RD.CRC_DATA returns 0 and feeds nothing (R70). -/
def execRdCrcData (s : State) : Host.Outcome State Fault Refusal := returnRead (readCrcData s.block) s

/-- WR.CRC_DATA feeds one byte (R69). -/
def execWrCrcData (w : Word) (s : State) : Host.Outcome State Fault Refusal :=
  commit { s.block with crc := crcStep s.block.crc (dataField w) } s

/-- RD.CRC_VALUE returns the CRC; it neither resets nor finalises it (R71). -/
def execRdCrcValue (s : State) : Host.Outcome State Fault Refusal := returnRead (readCrcValue s.block) s

/-- WR.CRC_VALUE is accepted and has no effect: there is no preload (R43, R72). -/
def execWrCrcValue (_ : Word) (s : State) : Host.Outcome State Fault Refusal := commit s.block s

end Sys2Proof.Machine
end

