-- ==== Sys2Proof/Machine/System.lean ====
section
/-! DEFINITION. The block's only system-level operation, RESET (R108, R115). -/

namespace Sys2Proof.Machine

/-- The block that RESET leaves, element by element (R115); the marks and the operations still to come are not block
state and stay (R10, R115). -/
def resetBlock : Block where
  crc := crcInit
  seq := 0x00#8
  comp := 0x00#8
  rxcrc := 0x0000#16
  frame := 0x00#8
  en := false
  max := Config.tmoMaxReset
  count := 0x00000000#32
  tickf := false

/-- RESET returns the block to its reset state (R115). -/
def execReset (s : State) : Host.Outcome State Fault Refusal := commit resetBlock s

end Sys2Proof.Machine
end

