-- ==== Sys2Proof/Machine/Timeout.lean ====
section
/-! DEFINITION. The timeout counter's two events (R92, R93) and eight register operations (R94 to R101). -/

namespace Sys2Proof.Machine

/-- One count, saturating at 0xFFFFFFFF (R92). -/
def countUp (c : Word) : Word := if c = 0xFFFFFFFF#32 then c else c + 1#32

/-- TICK: counted and flagged while `EN` = 1; lost without trace while `EN` = 0 (R92). -/
def execTick (s : State) : Host.Outcome State Fault Refusal :=
  commit (if s.block.en then { s.block with count := countUp s.block.count, tickf := true } else s.block) s

/-- ACT: clears the count while `EN` = 1 (R93). -/
def execAct (s : State) : Host.Outcome State Fault Refusal :=
  commit (if s.block.en then { s.block with count := 0#32 } else s.block) s

/-- RD.TMO_CTRL returns `EN` (R95). -/
def execRdTmoCtrl (s : State) : Host.Outcome State Fault Refusal := returnRead (readTmoCtrl s.block) s

/-- WR.TMO_CTRL sets `EN`, and with CLR = 1 clears the count, in one operation (R94). -/
def execWrTmoCtrl (w : Word) (s : State) : Host.Outcome State Fault Refusal :=
  commit { s.block with en := enField w, count := if clrField w then 0#32 else s.block.count } s

/-- RD.TMO_MAX returns the threshold (R97). -/
def execRdTmoMax (s : State) : Host.Outcome State Fault Refusal := returnRead (readTmoMax s.block) s

/-- WR.TMO_MAX sets the threshold (R96). -/
def execWrTmoMax (w : Word) (s : State) : Host.Outcome State Fault Refusal :=
  commit { s.block with max := w } s

/-- RD.TMO_COUNT returns the ticks since activity (R98). -/
def execRdTmoCount (s : State) : Host.Outcome State Fault Refusal := returnRead (readTmoCount s.block) s

/-- WR.TMO_COUNT is accepted and has no effect (R43, R99). -/
def execWrTmoCount (_ : Word) (s : State) : Host.Outcome State Fault Refusal := commit s.block s

/-- RD.TMO_STATUS returns EXCEEDED and `TICKF` from one state, and clears neither (R100). -/
def execRdTmoStatus (s : State) : Host.Outcome State Fault Refusal := returnRead (readTmoStatus s.block) s

/-- WR.TMO_STATUS: bit 1 = 1 clears `TICKF` (R101). -/
def execWrTmoStatus (w : Word) (s : State) : Host.Outcome State Fault Refusal :=
  commit (if tickfClearField w then { s.block with tickf := false } else s.block) s

end Sys2Proof.Machine
end

