-- ==== Sys2Proof/Machine/Validator.lean ====
section
/-! DEFINITION. The eight operations on the packet validator's registers (R80 to R87). -/

namespace Sys2Proof.Machine

/-- RD.PKT_SEQ returns both bytes (R81). -/
def execRdPktSeq (s : State) : Host.Outcome State Fault Refusal := returnRead (readPktSeq s.block) s

/-- WR.PKT_SEQ loads sequence and complement together (R80). -/
def execWrPktSeq (w : Word) (s : State) : Host.Outcome State Fault Refusal :=
  commit { s.block with seq := seqField w, comp := compField w } s

/-- RD.PKT_RXCRC returns the transmitted checksum (R83). -/
def execRdPktRxcrc (s : State) : Host.Outcome State Fault Refusal := returnRead (readPktRxcrc s.block) s

/-- WR.PKT_RXCRC loads the transmitted checksum (R82). -/
def execWrPktRxcrc (w : Word) (s : State) : Host.Outcome State Fault Refusal :=
  commit { s.block with rxcrc := rxcrcField w } s

/-- RD.PKT_STATUS returns the validation result of the current registers; nothing is latched (R84). -/
def execRdPktStatus (s : State) : Host.Outcome State Fault Refusal := returnRead (readPktStatus s.block) s

/-- WR.PKT_STATUS is accepted and has no effect: the status cannot be forced (R43, R85). -/
def execWrPktStatus (_ : Word) (s : State) : Host.Outcome State Fault Refusal := commit s.block s

/-- RD.PKT_FRAME returns the framing byte, its kind and its payload length (R87). -/
def execRdPktFrame (s : State) : Host.Outcome State Fault Refusal := returnRead (readPktFrame s.block) s

/-- WR.PKT_FRAME loads the framing byte (R86). -/
def execWrPktFrame (w : Word) (s : State) : Host.Outcome State Fault Refusal :=
  commit { s.block with frame := frameField w } s

end Sys2Proof.Machine
end

