-- ==== Sys2Proof/Machine/Dispatch.lean ====
section
/-! DEFINITION. exec: one direct call of a meaning per operation of the opcode map (R54). -/

namespace Sys2Proof.Machine

def exec (i : Instr) (s : State) : Host.Outcome State Fault Refusal :=
  match i with
  | .rdCrcCtrl => Sys2Proof.Machine.execRdCrcCtrl s
  | .wrCrcCtrl wdata => Sys2Proof.Machine.execWrCrcCtrl wdata s
  | .rdCrcData => Sys2Proof.Machine.execRdCrcData s
  | .wrCrcData wdata => Sys2Proof.Machine.execWrCrcData wdata s
  | .rdCrcValue => Sys2Proof.Machine.execRdCrcValue s
  | .wrCrcValue wdata => Sys2Proof.Machine.execWrCrcValue wdata s
  | .rdPktSeq => Sys2Proof.Machine.execRdPktSeq s
  | .wrPktSeq wdata => Sys2Proof.Machine.execWrPktSeq wdata s
  | .rdPktRxcrc => Sys2Proof.Machine.execRdPktRxcrc s
  | .wrPktRxcrc wdata => Sys2Proof.Machine.execWrPktRxcrc wdata s
  | .rdPktStatus => Sys2Proof.Machine.execRdPktStatus s
  | .wrPktStatus wdata => Sys2Proof.Machine.execWrPktStatus wdata s
  | .rdPktFrame => Sys2Proof.Machine.execRdPktFrame s
  | .wrPktFrame wdata => Sys2Proof.Machine.execWrPktFrame wdata s
  | .rdTmoCtrl => Sys2Proof.Machine.execRdTmoCtrl s
  | .wrTmoCtrl wdata => Sys2Proof.Machine.execWrTmoCtrl wdata s
  | .rdTmoMax => Sys2Proof.Machine.execRdTmoMax s
  | .wrTmoMax wdata => Sys2Proof.Machine.execWrTmoMax wdata s
  | .rdTmoCount => Sys2Proof.Machine.execRdTmoCount s
  | .wrTmoCount wdata => Sys2Proof.Machine.execWrTmoCount wdata s
  | .rdTmoStatus => Sys2Proof.Machine.execRdTmoStatus s
  | .wrTmoStatus wdata => Sys2Proof.Machine.execWrTmoStatus wdata s
  | .tick => Sys2Proof.Machine.execTick s
  | .act => Sys2Proof.Machine.execAct s
  | .reset => Sys2Proof.Machine.execReset s

end Sys2Proof.Machine
end

