-- ==== Sys2Proof/Machine/Operate.lean ====
section
/-! DEFINITION. One operation from its request to its outcome (R10), and how the machine moves on after it (R46, R106). -/

namespace Sys2Proof.Machine

/-- The outcome of one operation applied to a state: OK with a new state, `ERR(cause)`, or REFUSED (R10, R52). -/
def operate (r : Request) (s : State) : Host.Outcome State Fault Refusal :=
  match decode r with
  | .op i => exec i s
  | .busError cause => .fault (.busError cause)
  | .refuse why => .refused (.reservedDescriptor why)

/-- What follows an outcome reached from `s`: after a bus error the response is given and the next operation proceeds
normally (R106); a refused descriptor has no meaning, so there is nothing to go on with (R104, log entry 5). -/
def moveOn (s : State) : Host.Outcome State Fault Refusal → Host.Outcome State Fault Refusal
  | .next t => .next t
  | .fault (.busError cause) => .next (takeBusError cause s)
  | .refused why => .refused why

/-- The first pending operation takes effect, on the state every operation before it left (R46). With none pending
no agent acts, and the block, which never stops by itself (R11), stays as it is (log entry 3). -/
def advance (s : State) : Host.Outcome State Fault Refusal :=
  match s.pending with
  | [] => .next s
  | r :: rest => moveOn { s with pending := rest } (operate r { s with pending := rest })

/-- The state with one more operation presented, to take effect next. -/
def State.presenting (s : State) (r : Request) : State := { s with pending := r :: s.pending }

/-- The state with a table word presented as the next operation; a word that stands for no request is not
presented (log entries 3, 4). -/
def presentTableWord (s : State) (nbits w : Nat) : State :=
  match tableRequest nbits w with
  | some r => s.presenting r
  | none => s

end Sys2Proof.Machine
end

