-- ==== Sys2Proof/Machine/Step.lean ====
section
/-! DEFINITION. One step of the machine: the next operation of the total order takes effect (R46). -/

namespace Sys2Proof.Machine

/-- One step (R10, R46). -/
def step (s : State) : Host.Outcome State Fault Refusal := advance s

/-- `s` with the operation a table word stands for presented next. The block fetches nothing (R18, R50): the agents
present operations, and this stands for an agent presenting one (log entry 3). -/
def State.withFetchWord (s : State) (nbits w : Nat) : State := presentTableWord s nbits w

end Sys2Proof.Machine
end

