-- ==== Sys2Proof/Machine/Run.lean ====
section
/-! DEFINITION. A run: a finite sequence of operations from a state (R11), each leaving its mark (R10), whatever its
outcome. `step` refuses to go past a descriptor that spells no operation; a run records REFUSED and goes on. -/

namespace Sys2Proof.Machine

/-- One operation of a run: the state it leaves, with its outcome recorded. After `ERR` and `REFUSED` the block is as
it was, and the mark is never cleared (R10, R102, R104). -/
def perform (s : State) (r : Request) : State :=
  match decode r with
  | .busError cause => takeBusError cause s
  | .refuse why => s.yielding (.refused why)
  | .op i =>
    match exec i s with
    | .next t => t
    | .fault _ => s
    | .refused _ => s

/-- A run of requests, in order (R11, R46). -/
def runOps (s : State) (rs : List Request) : State := rs.foldl perform s

/-- A run of operations, in order; each is presented by its encoding (R54). -/
def runInstrs (s : State) (is : List Instr) : State := runOps s (is.map encode)

end Sys2Proof.Machine
end

