-- ==== Sys2Proof/Machine/Window.lean ====
section
/-! DEFINITION. The window in the system map (R34, R35): the host's accesses by system address (R13, R37). -/

namespace Sys2Proof.Machine

/-- The SIZE field of an access of so many bytes; no access has another width (R41, R51). -/
def sizeOfBytes : Nat → Option (BitVec 2)
  | 1 => some 0b00#2
  | 2 => some 0b01#2
  | 4 => some 0b10#2
  | _ => none

/-- The window offset of a system address, if the address lies in the window (R34). -/
def windowOffset (addr : Nat) : Option Byte :=
  if Config.blockBase ≤ addr ∧ addr < Config.blockBase + 256 then some (BitVec.ofNat 8 (addr - Config.blockBase))
  else none

/-- `MemRead(addr, bytes)` as the block sees it, or none where the block does not answer: the address is outside
the window, or the width is none a descriptor spells (R13, R34, R51). -/
def memReadRequest (addr bytes : Nat) : Option Request := do
  let off ← windowOffset addr
  let size ← sizeOfBytes bytes
  return ⟨size ++ 0b00#2 ++ off, 0#32⟩

/-- `MemWrite(addr, bytes, wdata)` as the block sees it (R13, R34, R51). -/
def memWriteRequest (addr bytes : Nat) (wdata : Word) : Option Request := do
  let off ← windowOffset addr
  let size ← sizeOfBytes bytes
  return ⟨size ++ 0b01#2 ++ off, wdata⟩

/-- `BusRead(off)`: the host's word read at a window offset (R13). -/
def busRead (off : Byte) : Request := ⟨0b10#2 ++ 0b00#2 ++ off, 0#32⟩

/-- `BusWrite(off, wdata)`: the host's word write at a window offset (R13). -/
def busWrite (off : Byte) (wdata : Word) : Request := ⟨0b10#2 ++ 0b01#2 ++ off, wdata⟩

end Sys2Proof.Machine
end

