-- ==== Sys2Proof/Machine/Assembler.lean ====
section
/-! DEFINITION. The assembler: from a line of text to a line of syntax (R59), its pseudo-operations (R60), and the
requests it assembles to. -/

namespace Sys2Proof.Machine.Asm

/-! ### From a line to requests -/

/-- The SIZE field a raw form spells (R59, R51). -/
def sizeBits : RawSize → BitVec 2
  | .byte => 0b00#2
  | .half => 0b01#2
  | .word => 0b10#2

/-- A pseudo-operation's expansion, in order; an operation line expands to itself (R60). -/
def expand : AsmLine → List AsmLine
  | .crcinit => [.wr .crcCtrl 0x1]
  | .crcfeed b => [.wr .crcData b]
  | .crcblk bs => bs.map (AsmLine.wr .crcData)
  | .crcfill b n => List.replicate n (.wr .crcData b)
  | .ldseq s c => [.wr .pktSeq ((c <<< 8) ||| s)]
  | .ldrx hi lo => [.wr .pktRxcrc ((hi <<< 8) ||| lo)]
  | .ldframe b => [.wr .pktFrame b]
  | .tmoarm m => [.wr .tmoMax m, .wr .tmoCtrl 0x3]
  | .tmoclr => [.wr .tmoCtrl 0x3]
  | .tmostop => [.wr .tmoCtrl 0x0]
  | .tickack => [.wr .tmoStatus 0x2]
  | .blank => [.blank]
  | .rd r => [.rd r]
  | .wr r v => [.wr r v]
  | .rdRaw z off => [.rdRaw z off]
  | .wrRaw z off v => [.wrRaw z off v]
  | .tick => [.tick]
  | .act => [.act]
  | .reset => [.reset]

/-- The request of an operation line: the descriptor of R54, or `{SIZE, CLASS, off}` for a raw form (R59).
A pseudo-operation is none itself (R60) and has been expanded before. -/
def requestsOf : AsmLine → List Request
  | .rd r => [encode (readOf r)]
  | .wr r v => [encode (writeOf r (BitVec.ofNat 32 v))]
  | .rdRaw z off => [⟨sizeBits z ++ 0b00#2 ++ BitVec.ofNat 8 off, 0#32⟩]
  | .wrRaw z off v => [⟨sizeBits z ++ 0b01#2 ++ BitVec.ofNat 8 off, BitVec.ofNat 32 v⟩]
  | .tick => [encode .tick]
  | .act => [encode .act]
  | .reset => [encode .reset]
  | .blank | .crcinit | .crcfeed _ | .crcblk _ | .crcfill _ _ | .ldseq _ _ | .ldrx _ _ | .ldframe _ => []
  | .tmoarm _ | .tmoclr | .tmostop | .tickack => []

/-- The requests a line assembles to, or none where the assembler rejects it (R59, R60). -/
def assemble (l : AsmLine) : Option (List Request) :=
  if l.wf then some ((expand l).flatMap requestsOf) else none

/-! ### From text to a line (R59) -/

/-- Blanks between words; a line holds no line break. -/
def isBlank (c : Char) : Bool := c = ' ' || c = '\t'

/-- Text after `;` is a comment. -/
def dropComment (cs : List Char) : List Char := cs.takeWhile (· ≠ ';')

/-- A text without the blanks at its two ends. -/
def trim (cs : List Char) : List Char :=
  (((cs.dropWhile isBlank).reverse).dropWhile isBlank).reverse

/-- The value of a digit in a base of at most 16. -/
def digit (base : Nat) (c : Char) : Option Nat :=
  let v := if '0' ≤ c ∧ c ≤ '9' then c.toNat - '0'.toNat
    else if 'a' ≤ c ∧ c ≤ 'f' then c.toNat - 'a'.toNat + 10
    else if 'A' ≤ c ∧ c ≤ 'F' then c.toNat - 'A'.toNat + 10
    else base
  if v < base then some v else none

/-- The value of a non-empty string of digits. -/
def digits (base : Nat) (cs : List Char) : Option Nat :=
  if cs.isEmpty then none
  else cs.foldl (fun acc c => do return (← acc) * base + (← digit base c)) (some 0)

/-- A numeral: `0x` and hexadecimal digits, else decimal digits (R59). -/
def numeral (cs : List Char) : Option Nat :=
  match cs with
  | '0' :: 'x' :: hs => digits 16 hs
  | _ => digits 10 cs

/-- An offset operand, `@` and a numeral (R59). -/
def offsetOperand (cs : List Char) : Option Nat :=
  match cs with
  | '@' :: ds => numeral ds
  | _ => none

/-- The name of a register (R20 to R31). -/
def regName : Reg → List Char
  | .crcCtrl => "CRC_CTRL".toList
  | .crcData => "CRC_DATA".toList
  | .crcValue => "CRC_VALUE".toList
  | .pktSeq => "PKT_SEQ".toList
  | .pktRxcrc => "PKT_RXCRC".toList
  | .pktStatus => "PKT_STATUS".toList
  | .pktFrame => "PKT_FRAME".toList
  | .tmoCtrl => "TMO_CTRL".toList
  | .tmoMax => "TMO_MAX".toList
  | .tmoCount => "TMO_COUNT".toList
  | .tmoStatus => "TMO_STATUS".toList

/-- The register a name stands for. -/
def regOperand (cs : List Char) : Option Reg := Reg.all.find? (fun r => regName r == cs)

/-- The operands after a line's first word: none, or the texts between the commas. -/
def operands (cs : List Char) : List (List Char) :=
  if (trim cs).isEmpty then [] else ((trim cs).splitOn ',').map trim

/-- The line a first word and its operands spell, if they spell one (R59, R60). -/
def spell (word : List Char) (ops : List (List Char)) : Option AsmLine :=
  if word = "rd".toList then match ops with
    | [r] => do return .rd (← regOperand r)
    | _ => none
  else if word = "wr".toList then match ops with
    | [r, v] => do return .wr (← regOperand r) (← numeral v)
    | _ => none
  else if word = "rd.b".toList then rawRead .byte ops
  else if word = "rd.h".toList then rawRead .half ops
  else if word = "rd.w".toList then rawRead .word ops
  else if word = "wr.b".toList then rawWrite .byte ops
  else if word = "wr.h".toList then rawWrite .half ops
  else if word = "wr.w".toList then rawWrite .word ops
  else if word = "tick".toList then bare .tick ops
  else if word = "act".toList then bare .act ops
  else if word = "reset".toList then bare .reset ops
  else if word = "crcinit".toList then bare .crcinit ops
  else if word = "crcfeed".toList then one .crcfeed ops
  else if word = "crcblk".toList then do return .crcblk (← ops.mapM numeral)
  else if word = "crcfill".toList then two .crcfill ops
  else if word = "ldseq".toList then two .ldseq ops
  else if word = "ldrx".toList then two .ldrx ops
  else if word = "ldframe".toList then one .ldframe ops
  else if word = "tmoarm".toList then one .tmoarm ops
  else if word = "tmoclr".toList then bare .tmoclr ops
  else if word = "tmostop".toList then bare .tmostop ops
  else if word = "tickack".toList then bare .tickack ops
  else none
where
  rawRead (z : RawSize) : List (List Char) → Option AsmLine
    | [off] => do return .rdRaw z (← offsetOperand off)
    | _ => none
  rawWrite (z : RawSize) : List (List Char) → Option AsmLine
    | [off, v] => do return .wrRaw z (← offsetOperand off) (← numeral v)
    | _ => none
  bare (l : AsmLine) : List (List Char) → Option AsmLine
    | [] => some l
    | _ => none
  one (f : Nat → AsmLine) : List (List Char) → Option AsmLine
    | [a] => do return f (← numeral a)
    | _ => none
  two (f : Nat → Nat → AsmLine) : List (List Char) → Option AsmLine
    | [a, b] => do return f (← numeral a) (← numeral b)
    | _ => none

/-- The line of syntax a line of text spells (R59, R60). -/
def parse (text : List Char) : Option AsmLine :=
  let cs := trim (dropComment text)
  if cs.isEmpty then some .blank
  else spell (cs.takeWhile (fun c => !isBlank c)) (operands (cs.dropWhile (fun c => !isBlank c)))

/-- One line of text, assembled (R59). -/
def assembleText (text : List Char) : Option (List Request) := (parse text).bind assemble

end Sys2Proof.Machine.Asm
end

