-- ==== Sys2Proof/Machine/HostUse.lean ====
section
/-! DEFINITION. The packet on the wire (R38, R58) and what the block's host does with the block, as the spec tells it for
the reader of a host model (R79, R91, R109, R117). No meaning above uses anything of this file. -/

namespace Sys2Proof.Machine

/-! ### The packet (R58) -/

/-- A data packet by the fields of its wire layout (R58). -/
structure Packet where
  frame   : Byte
  seq     : Byte
  comp    : Byte
  payload : List Byte
  crcHi   : Byte
  crcLo   : Byte
  deriving DecidableEq, Repr

/-- The transmitted checksum, big-endian: the first byte is the high one (R38). -/
def Packet.checksum (p : Packet) : Half := p.crcHi ++ p.crcLo

/-- The packet's bytes in wire order (R58). -/
def Packet.wire (p : Packet) : List Byte :=
  p.frame :: p.seq :: p.comp :: p.payload ++ [p.crcHi, p.crcLo]

/-- A packet's declared size is determined solely by its framing byte, SOH or STX (R58). -/
def Packet.sized (p : Packet) : Bool :=
  (kindOf p.frame == .short || kindOf p.frame == .long) && p.payload.length == payloadLength (kindOf p.frame)

/-- The document's validity condition (R14, R75). -/
def Packet.isValid (p : Packet) : Bool :=
  p.seq.toNat + p.comp.toNat == 255 && crc16 p.payload == p.checksum

/-- The data packet a byte sequence on the wire is, if it is one: SOH or STX, then exactly the bytes of R58. -/
def Packet.ofWire (bytes : List Byte) : Option Packet :=
  match bytes with
  | frame :: seq :: comp :: rest =>
    let n := payloadLength (kindOf frame)
    match rest.drop n with
    | [hi, lo] =>
      let p : Packet := ⟨frame, seq, comp, rest.take n, hi, lo⟩
      if p.sized then some p else none
    | _ => none
  | _ => none

/-! ### What the host issues -/

/-- The word that holds a byte in bits 7:0. -/
def byteWord (b : Byte) : Word := b.setWidth 32

/-- The word that holds two bytes in bits 15:0, `hi` in bits 15:8. -/
def pairWord (hi lo : Byte) : Word := (hi ++ lo).setWidth 32

/-- The RECEIVE phase's operations for one data packet, in the order of R79: framing byte, INIT, sequence and
complement, every payload byte in wire order, the two checksum bytes, and the read of the result. -/
def receiveOps (p : Packet) : List Instr :=
  [.wrPktFrame (byteWord p.frame), .rdPktFrame, .wrCrcCtrl 0x1#32, .wrPktSeq (pairWord p.comp p.seq)]
    ++ p.payload.map (fun b => .wrCrcData (byteWord b))
    ++ [.wrPktRxcrc (pairWord p.crcHi p.crcLo), .rdPktStatus]

/-- Entering discovery: load the threshold, clear and enable together, drop a stale TICKF (R117.1). -/
def enterDiscovery (maxRetries : Word) : List Instr :=
  [.wrTmoMax maxRetries, .wrTmoCtrl 0x3#32, .wrTmoStatus 0x2#32]

/-- Leaving discovery, before the flash erase (R117.2). -/
def leaveDiscovery : List Instr := [.wrTmoCtrl 0x0#32]

/-! ### What the host does with what it reads -/

/-- The host's next move in the RECEIVE phase (R79). -/
inductive ReceiveMove where
  /-- VALID = 0: transmit NAK, remain in RECEIVE -/
  | nak
  /-- HEADER = 1: transmit ACK, then the start byte again -/
  | ackThenStart
  /-- DATA = 1: write the payload to flash; on success advance by its length and transmit ACK -/
  | writePayload
  deriving DecidableEq, Repr

/-- The move after a read of PKT_STATUS (R79). -/
def receiveMove (status : Word) : ReceiveMove :=
  if status.getLsbD 2 then (if status.getLsbD 3 then .ackThenStart else .writePayload) else .nak

/-- Where a framing byte sends the host in the RECEIVE phase (R79). -/
inductive FrameMove where
  /-- a data packet of so many payload bytes follows -/
  | packet (payloadBytes : Nat)
  /-- the end sequence -/
  | endSequence
  /-- CANCELLED -/
  | cancelled
  deriving DecidableEq, Repr

/-- The move after a framing byte, from the KIND field of a read of PKT_FRAME; for KIND = OTHER "no defined transition
in the reference behavior", so there is none (R79; spec/93 item 1). -/
def frameMove (frameWord : Word) : Option FrameMove :=
  let kind := frameWord.extractLsb' 8 4
  if kind = 1#4 ∨ kind = 2#4 then some (.packet (frameWord.extractLsb' 16 11).toNat)
  else if kind = 3#4 then some .endSequence
  else if kind = 4#4 then some .cancelled
  else none

/-- On a read of TMO_STATUS in discovery: whether the host clears TICKF and sends the probe byte (R91). -/
def sendsProbe (status : Word) : Bool := status.getLsbD 1

/-- On a read of TMO_STATUS in discovery: whether the host ends in TIMEOUT (R91). -/
def endsInTimeout (status : Word) : Bool := status.getLsbD 0

/-- Where a byte received in discovery sends the host (R91). -/
inductive DiscoverMove where
  | erase
  | cancelled
  /-- the byte is discarded and discovery continues listening -/
  | listen
  deriving DecidableEq, Repr

/-- The move after a byte received in discovery (R91). -/
def discoverMove (b : Byte) : DiscoverMove :=
  if b = wireAck then .erase else if b = wireCan then .cancelled else .listen

/-! ### The document's errors as the block shows them (R109) -/

/-- The document's errors in which the block has a part; EraseFailed and ProgramFailed are flash errors (R109). -/
inductive DocumentError where
  | noSenderDetected | senderCancelled | packetCorrupt | protocolDesync
  deriving DecidableEq, Repr

/-- Whether the block shows the error, as a value the host reads; senderCancelled as the transfer phase shows it,
since in discovery the host compares the received byte itself (R109). -/
def Block.shows (b : Block) : DocumentError → Bool
  | .noSenderDetected => exceeded b
  | .senderCancelled => kindOf b.frame == .can
  | .packetCorrupt => !valid b
  | .protocolDesync => kindOf b.frame == .other

end Sys2Proof.Machine
end

