-- ==== Sys2Proof/Safety.lean ====
section
/-! DEFINITION. What counts as a safe run, and the terms the claims use: which requests do what, and which bits of which
registers a program can set or see. -/

namespace Sys2Proof

open Machine

/-! ### The agents' duty (R118) -/

/-- Whether a request spells an operation or a real access, so that an agent may present it (R104, R118). -/
def Request.presentable (r : Request) : Bool :=
  match decode r with
  | .op _ => true
  | .busError _ => true
  | .refuse _ => false

/-- The agents keep their duty for every operation still to come (R118). -/
def Machine.State.dutiful (s : Machine.State) : Bool := s.pending.all Request.presentable

/-! ### What a request does to a sub-unit -/

/-- What a request is by the operation it spells, and `otherwise` where it spells no operation. -/
def Request.onOperation {α : Type} (r : Request) (otherwise : α) (f : Instr → α) : α :=
  match decode r with
  | .op i => f i
  | .busError _ => otherwise
  | .refuse _ => otherwise

/-- TICK and ACTIVITY, the two asynchronous events (R9, R47). -/
def Instr.isEvent : Instr → Bool
  | .tick => true
  | .act => true
  | .rdCrcCtrl | .rdCrcData | .rdCrcValue | .rdPktSeq | .rdPktRxcrc | .rdPktStatus => false
  | .rdPktFrame | .rdTmoCtrl | .rdTmoMax | .rdTmoCount | .rdTmoStatus => false
  | .wrCrcCtrl _ | .wrCrcData _ | .wrCrcValue _ | .wrPktSeq _ | .wrPktRxcrc _ | .wrPktStatus _ => false
  | .wrPktFrame _ | .wrTmoCtrl _ | .wrTmoMax _ | .wrTmoCount _ | .wrTmoStatus _ => false
  | .reset => false

/-- The byte an operation feeds into the CRC, if it is a write to CRC_DATA (R69). -/
def Instr.fedByte : Instr → Option Byte
  | .wrCrcData w => some (dataField w)
  | .rdCrcCtrl | .rdCrcData | .rdCrcValue | .rdPktSeq | .rdPktRxcrc | .rdPktStatus => none
  | .rdPktFrame | .rdTmoCtrl | .rdTmoMax | .rdTmoCount | .rdTmoStatus => none
  | .wrCrcCtrl _ | .wrCrcValue _ | .wrPktSeq _ | .wrPktRxcrc _ | .wrPktStatus _ | .wrPktFrame _ => none
  | .wrTmoCtrl _ | .wrTmoMax _ | .wrTmoCount _ | .wrTmoStatus _ => none
  | .tick | .act | .reset => none

/-- Whether an operation sets the CRC to its initial value: WR.CRC_CTRL with INIT = 1, or RESET (R63). -/
def Instr.initialisesCrc : Instr → Bool
  | .wrCrcCtrl w => initField w
  | .reset => true
  | .rdCrcCtrl | .rdCrcData | .rdCrcValue | .rdPktSeq | .rdPktRxcrc | .rdPktStatus => false
  | .rdPktFrame | .rdTmoCtrl | .rdTmoMax | .rdTmoCount | .rdTmoStatus => false
  | .wrCrcData _ | .wrCrcValue _ | .wrPktSeq _ | .wrPktRxcrc _ | .wrPktStatus _ | .wrPktFrame _ => false
  | .wrTmoCtrl _ | .wrTmoMax _ | .wrTmoCount _ | .wrTmoStatus _ => false
  | .tick | .act => false

/-- ACTIVITY, a CLR, a write to TMO_MAX or RESET: what R89 shuts out while the ticks are counted. -/
def Instr.rearms : Instr → Bool
  | .act => true
  | .wrTmoCtrl w => clrField w
  | .wrTmoMax _ => true
  | .reset => true
  | .rdCrcCtrl | .rdCrcData | .rdCrcValue | .rdPktSeq | .rdPktRxcrc | .rdPktStatus => false
  | .rdPktFrame | .rdTmoCtrl | .rdTmoMax | .rdTmoCount | .rdTmoStatus => false
  | .wrCrcCtrl _ | .wrCrcData _ | .wrCrcValue _ | .wrPktSeq _ | .wrPktRxcrc _ | .wrPktStatus _ => false
  | .wrPktFrame _ | .wrTmoCount _ | .wrTmoStatus _ => false
  | .tick => false

/-- `EN` after an operation, where `en` is `EN` before it: only a write to TMO_CTRL and RESET change it (R94, R115). -/
def Instr.enableAfter (en : Bool) : Instr → Bool
  | .wrTmoCtrl w => enField w
  | .reset => false
  | .rdCrcCtrl | .rdCrcData | .rdCrcValue | .rdPktSeq | .rdPktRxcrc | .rdPktStatus => en
  | .rdPktFrame | .rdTmoCtrl | .rdTmoMax | .rdTmoCount | .rdTmoStatus => en
  | .wrCrcCtrl _ | .wrCrcData _ | .wrCrcValue _ | .wrPktSeq _ | .wrPktRxcrc _ | .wrPktStatus _ => en
  | .wrPktFrame _ | .wrTmoMax _ | .wrTmoCount _ | .wrTmoStatus _ => en
  | .tick | .act => en

def Request.isEvent (r : Request) : Bool := r.onOperation false Instr.isEvent
def Request.fedByte (r : Request) : Option Byte := r.onOperation none Instr.fedByte
def Request.initialisesCrc (r : Request) : Bool := r.onOperation false Instr.initialisesCrc
def Request.rearms (r : Request) : Bool := r.onOperation false Instr.rearms
def Request.enableAfter (en : Bool) (r : Request) : Bool := r.onOperation en (Instr.enableAfter en)

/-- Whether a request turns the counter on, a write to TMO_CTRL with EN = 1 (R94). -/
def Request.enables (r : Request) : Bool := r.enableAfter false

/-- The bytes a sequence of requests feeds into the CRC, in order. -/
def fedBytes (rs : List Request) : List Byte := rs.filterMap Request.fedByte

/-- The TICKs of a sequence that occur with `EN` = 1, where `en` is `EN` before the sequence (R89). -/
def countedTicks : Bool → List Request → Nat
  | _, [] => 0
  | en, r :: rs => (if decode r = .op .tick ∧ en = true then 1 else 0) + countedTicks (r.enableAfter en) rs

/-! ### What a register shows -/

/-- The registers whose read may change with each operation: those that hold what it writes, and those whose flags
R32 names for it. -/
def Instr.affects : Instr → List Reg
  | .wrCrcCtrl _ | .wrCrcData _ => [.crcValue, .pktStatus]
  | .wrPktSeq _ => [.pktSeq, .pktStatus]
  | .wrPktRxcrc _ => [.pktRxcrc, .pktStatus]
  | .wrPktFrame _ => [.pktFrame]
  | .wrTmoCtrl _ => [.tmoCtrl, .tmoCount, .tmoStatus]
  | .wrTmoMax _ => [.tmoMax, .tmoStatus]
  | .wrTmoStatus _ => [.tmoStatus]
  | .tick | .act => [.tmoCount, .tmoStatus]
  | .reset => Reg.all
  | .wrCrcValue _ | .wrPktStatus _ | .wrTmoCount _ => []
  | .rdCrcCtrl | .rdCrcData | .rdCrcValue | .rdPktSeq | .rdPktRxcrc | .rdPktStatus | .rdPktFrame => []
  | .rdTmoCtrl | .rdTmoMax | .rdTmoCount | .rdTmoStatus => []

/-- The bits of each register that its table does not mark reserved, W1 or WO: every other bit reads 0
(R20 to R31, R42, R43). -/
def Reg.readableBits : Reg → Word
  | .crcCtrl => 0x00000000#32
  | .crcData => 0x00000000#32
  | .crcValue => 0x0000FFFF#32
  | .pktSeq => 0x0000FFFF#32
  | .pktRxcrc => 0x0000FFFF#32
  | .pktStatus => 0x0000001F#32
  | .pktFrame => 0x07FF0FFF#32
  | .tmoCtrl => 0x00000001#32
  | .tmoMax => 0xFFFFFFFF#32
  | .tmoCount => 0xFFFFFFFF#32
  | .tmoStatus => 0x00000003#32

/-- The bits of a write's operand that each register takes: every other bit is reserved or RO and is ignored
(R42, R43, R56). -/
def Reg.writableBits : Reg → Word
  | .crcCtrl => 0x00000001#32
  | .crcData => 0x000000FF#32
  | .crcValue => 0x00000000#32
  | .pktSeq => 0x0000FFFF#32
  | .pktRxcrc => 0x0000FFFF#32
  | .pktStatus => 0x00000000#32
  | .pktFrame => 0x000000FF#32
  | .tmoCtrl => 0x00000003#32
  | .tmoMax => 0xFFFFFFFF#32
  | .tmoCount => 0x00000000#32
  | .tmoStatus => 0x00000002#32

/-- The packet registers: they change only by host writes and RESET (R121). -/
def Reg.isPacket : Reg → Bool
  | .crcValue | .pktSeq | .pktRxcrc | .pktStatus | .pktFrame => true
  | .crcCtrl | .crcData | .tmoCtrl | .tmoMax | .tmoCount | .tmoStatus => false

/-- The operations whose repetition leaves the block as one of them does (R45): all but the write of CRC_DATA and TICK. -/
def Instr.idempotent : Instr → Bool
  | .wrCrcData _ | .tick => false
  | .wrCrcCtrl _ | .wrCrcValue _ | .wrPktSeq _ | .wrPktRxcrc _ | .wrPktStatus _ | .wrPktFrame _ => true
  | .wrTmoCtrl _ | .wrTmoMax _ | .wrTmoCount _ | .wrTmoStatus _ | .act | .reset => true
  | .rdCrcCtrl | .rdCrcData | .rdCrcValue | .rdPktSeq | .rdPktRxcrc | .rdPktStatus | .rdPktFrame => true
  | .rdTmoCtrl | .rdTmoMax | .rdTmoCount | .rdTmoStatus => true

end Sys2Proof
end

