-- ==== Sys2Proof/Certificates/Slice0/Obligations.lean ====
section
/-! DEFINITION. The statements about this model, each with the rule it formalises. -/

open Sys2Proof Sys2Proof.Machine

/-! ### Reset -/

/-- R33: every stored element's reset value; `MAX` takes the open parameter. -/
def Obligations.ResetStateHoldsTheSpecsValues : Prop :=
  State.reset.block =
    { crc := 0x0000#16, seq := 0x00#8, comp := 0x00#8, rxcrc := 0x0000#16, frame := 0x00#8,
      en := false, max := Config.tmoMaxReset, count := 0x00000000#32, tickf := false }

/-- R115: what RESET does to every element, the flags it leaves, that it is idempotent, and that marks stay. -/
def Obligations.ResetOperationRestoresEveryElement : Prop :=
  (∀ w, decode ⟨0x202#12, w⟩ = .op .reset) ∧
  ∀ s : State,
    exec .reset s = .next
      { s with
        block := { crc := 0x0000#16, seq := 0x00#8, comp := 0x00#8, rxcrc := 0x0000#16, frame := 0x00#8,
                   en := false, max := Config.tmoMaxReset, count := 0x00000000#32, tickf := false }
        outcomes := .ok none :: s.outcomes } ∧
    ∀ t, exec .reset s = .next t →
      (readReg .pktStatus t.block = 0x00000002#32 ∧ readReg .pktFrame t.block = 0x00000000#32 ∧
        readReg .tmoStatus t.block = 0x00000000#32) ∧
      (∃ u, exec .reset t = .next u ∧ u.block = t.block) ∧
      t.faultMarks = s.faultMarks ∧ t.refusalMarks = s.refusalMarks

/-- R116: after RESET no tick is counted until the host enables the counter. A run goes on past a refused descriptor with
the block as it was (log entry 5). -/
def Obligations.NoTickIsCountedAfterResetUntilEnabled : Prop :=
  ∀ (s t : State) (rs : List Request), exec .reset s = .next t → (∀ r ∈ rs, r.enables = false) →
    (runOps t rs).block.en = false ∧ (runOps t rs).block.count = 0#32 ∧ (runOps t rs).block.tickf = false

/-! ### The CRC generator -/

/-- R67: INIT = 1 loads 0x0000, INIT = 0 does nothing, the other bits are ignored. -/
def Obligations.WriteCrcCtrlInitialisesTheCrc : Prop :=
  (∀ w, decode ⟨0x900#12, w⟩ = .op (.wrCrcCtrl w)) ∧
  ∀ (w : Word) (s : State), exec (.wrCrcCtrl w) s = .next
    { s with
      block := { s.block with crc := if w.toNat % 2 = 1 then 0x0000#16 else s.block.crc }
      outcomes := .ok none :: s.outcomes }

/-- R68, R70 and R71: CRC_CTRL and CRC_DATA read 0 in every state, CRC_VALUE the CRC in bits 15:0 and 0 above; no read
changes anything else. -/
def Obligations.ReadsOfTheCrcRegistersReturnTheirWords : Prop :=
  (∀ w, decode ⟨0x800#12, w⟩ = .op .rdCrcCtrl) ∧ (∀ w, decode ⟨0x804#12, w⟩ = .op .rdCrcData) ∧
  (∀ w, decode ⟨0x808#12, w⟩ = .op .rdCrcValue) ∧
  ∀ s : State,
    exec .rdCrcCtrl s = .next { s with outcomes := .ok (some 0x00000000#32) :: s.outcomes } ∧
    exec .rdCrcData s = .next { s with outcomes := .ok (some 0x00000000#32) :: s.outcomes } ∧
    exec .rdCrcValue s = .next
      { s with outcomes := .ok (some (BitVec.ofNat 32 s.block.crc.toNat)) :: s.outcomes }

/-- R69: one byte, `wdata[7:0]`, is fed; feeding 0x00 to CRC = 0x0000 leaves it. -/
def Obligations.WriteCrcDataFeedsOneByte : Prop :=
  (∀ w, decode ⟨0x904#12, w⟩ = .op (.wrCrcData w)) ∧
  (∀ (w : Word) (s : State), exec (.wrCrcData w) s = .next
    { s with
      block := { s.block with crc := crcStep s.block.crc (BitVec.ofNat 8 (w.toNat % 256)) }
      outcomes := .ok none :: s.outcomes }) ∧
  crcStep 0x0000#16 0x00#8 = 0x0000#16

/-- R72, R85 and R99: writes to the three read-only registers are accepted and have no effect. -/
def Obligations.WritesToReadOnlyRegistersHaveNoEffect : Prop :=
  (∀ w, decode ⟨0x908#12, w⟩ = .op (.wrCrcValue w)) ∧ (∀ w, decode ⟨0x914#12, w⟩ = .op (.wrPktStatus w)) ∧
  (∀ w, decode ⟨0x928#12, w⟩ = .op (.wrTmoCount w)) ∧
  ∀ (w : Word) (s : State),
    exec (.wrCrcValue w) s = .next { s with outcomes := .ok none :: s.outcomes } ∧
    exec (.wrPktStatus w) s = .next { s with outcomes := .ok none :: s.outcomes } ∧
    exec (.wrTmoCount w) s = .next { s with outcomes := .ok none :: s.outcomes }

/-- R61: the update by unbounded naturals truncated to 16 bits, as R12 reads `<<` and `[15:0]`. -/
def Obligations.CrcStepIsEightShiftsWithFeedback : Prop :=
  ∀ (c : Half) (b : Byte),
    (crcStep c b).toNat =
      (fun x : Nat => if x / 32768 = 1 then ((x * 2) ^^^ 0x1021) % 65536 else (x * 2) % 65536)^[8]
        (c.toNat ^^^ (b.toNat * 256))

/-- R39: writes of CRC_DATA feed the division one bit at a time, bit 7 of a byte first and bit 0 last, the bytes in the
order of the writes. -/
def Obligations.CrcConsumesEachByteMostSignificantBitFirst : Prop :=
  ∀ (s : State) (bs : List Byte),
    (runInstrs s (bs.map (fun b => .wrCrcData (b.setWidth 32)))).block.crc =
      (bs.flatMap (fun b => (List.range 8).map (fun k => b.getLsbD (7 - k)))).foldl crcBit s.block.crc

/-- R62: the update folded over the bytes in order from 0x0000, for any length. -/
def Obligations.CrcOfASequenceIsTheFoldFromZero : Prop :=
  crc16 [] = 0x0000#16 ∧ ∀ (bs : List Byte) (b : Byte), crc16 (bs ++ [b]) = crcStep (crc16 bs) b

/-- R63: after an initialisation, CRC_VALUE holds `crc16` of the bytes written to CRC_DATA since, whatever else
happens between (events, other accesses, bus errors) but for a further initialisation. That the run also goes on past
refused descriptors is the model's choice (log entry 5), no part of R63. -/
def Obligations.CrcValueEqualsTheFunctionOfTheBytesFed : Prop :=
  ∀ (s : State) (start : Request) (rs : List Request), start.initialisesCrc = true →
    (∀ r ∈ rs, r.initialisesCrc = false) →
    (runOps s (start :: rs)).block.crc = crc16 (fedBytes rs) ∧
    readReg .crcValue (runOps s (start :: rs)).block = (crc16 (fedBytes rs)).setWidth 32

/-- R120: without an initialisation between, `CRC` is that of the previous bytes followed by the new ones. A run goes on
past a refused descriptor with the block as it was (log entry 5). -/
def Obligations.WithoutInitTheCrcCarriesOver : Prop :=
  ∀ (s : State) (previous : List Byte) (rs : List Request), s.block.crc = crc16 previous →
    (∀ r ∈ rs, r.initialisesCrc = false) →
    (runOps s rs).block.crc = crc16 (previous ++ fedBytes rs)

/-- R64: feeding two more bytes leaves 0x0000 exactly when they are the CRC, high byte first. -/
def Obligations.ResidueIsZeroExactlyForTheRightChecksum : Prop :=
  (∀ S D : Half, crcStep (crcStep S (D.extractLsb' 8 8)) (D.extractLsb' 0 8) = 0x0000#16 ↔ D = S) ∧
  ∀ (payload : List Byte) (D : Half),
    crc16 (payload ++ [D.extractLsb' 8 8, D.extractLsb' 0 8]) = 0x0000#16 ↔ D = crc16 payload

/-- R65: changing exactly one bit of a 128-byte or 1024-byte payload changes its CRC. -/
def Obligations.SingleBitErrorsAreDetected : Prop :=
  ∀ (payload : List Byte) (i k : Nat) (hi : i < payload.length), k < 8 →
    (payload.length = 128 ∨ payload.length = 1024) →
    crc16 (payload.set i (payload[i] ^^^ BitVec.twoPow 8 k)) ≠ crc16 payload

/-- R66: for length at most 1024, swapping two bytes changes the CRC exactly when they differ. -/
def Obligations.SwappingTwoBytesChangesTheCrcExactlyWhenTheyDiffer : Prop :=
  ∀ (bs : List Byte) (i j : Nat) (hi : i < bs.length) (hj : j < bs.length), bs.length ≤ 1024 →
    (crc16 ((bs.set i bs[j]).set j bs[i]) = crc16 bs ↔ bs[i] = bs[j])

/-! ### The packet validator -/

/-- R80: `wdata[7:0]` is the sequence and `wdata[15:8]` the complement, written together; the check the rule's corner
cases name (0x00 with 0xFF and 0xFF with 0x00 pass, equal bytes never pass). -/
def Obligations.WritePktSeqLoadsBothBytes : Prop :=
  (∀ w, decode ⟨0x90C#12, w⟩ = .op (.wrPktSeq w)) ∧
  ∀ (w : Word) (s : State), ∃ t, exec (.wrPktSeq w) s = .next t ∧
    t = { s with
          block := { s.block with seq := BitVec.ofNat 8 (w.toNat % 256), comp := BitVec.ofNat 8 (w.toNat / 256 % 256) }
          outcomes := .ok none :: s.outcomes } ∧
    (w.toNat % 65536 = 0xFF00 → seqOk t.block = true) ∧ (w.toNat % 65536 = 0x00FF → seqOk t.block = true) ∧
    (w.toNat % 256 = w.toNat / 256 % 256 → seqOk t.block = false)

/-- R81 and R83: PKT_SEQ reads `{COMP, SEQ}` in bits 15:0 and PKT_RXCRC reads `RXCRC` in bits 15:0, each with 0 above. -/
def Obligations.ReadsOfPktSeqAndPktRxcrcReturnWhatWasLoaded : Prop :=
  (∀ w, decode ⟨0x80C#12, w⟩ = .op .rdPktSeq) ∧ (∀ w, decode ⟨0x810#12, w⟩ = .op .rdPktRxcrc) ∧
  ∀ s : State,
    exec .rdPktSeq s = .next
      { s with outcomes := .ok (some (BitVec.ofNat 32 (256 * s.block.comp.toNat + s.block.seq.toNat))) :: s.outcomes } ∧
    exec .rdPktRxcrc s = .next
      { s with outcomes := .ok (some (BitVec.ofNat 32 s.block.rxcrc.toNat)) :: s.outcomes }

/-- R82: `wdata[15:0]` is the checksum; a host that swaps the two wire bytes gets CRC_OK only if the true CRC's two
bytes are equal. -/
def Obligations.WritePktRxcrcLoadsTheChecksum : Prop :=
  (∀ w, decode ⟨0x910#12, w⟩ = .op (.wrPktRxcrc w)) ∧
  ∀ (w : Word) (s : State), ∃ t, exec (.wrPktRxcrc w) s = .next t ∧
    t = { s with
          block := { s.block with rxcrc := BitVec.ofNat 16 (w.toNat % 65536) }
          outcomes := .ok none :: s.outcomes } ∧
    ∀ first second : Byte, s.block.crc = first ++ second → w.toNat % 65536 = 256 * second.toNat + first.toNat →
      (crcOk t.block = true ↔ first = second)

/-- R73: the check is the sum of the two bytes being 255, and the three other forms the document uses say the same. -/
def Obligations.SequenceCheckHasFourEqualForms : Prop :=
  ∀ b : Block,
    (seqOk b = true ↔ b.seq.toNat + b.comp.toNat = 255) ∧
    (seqOk b = true ↔ b.comp = 255#8 - b.seq) ∧
    (seqOk b = true ↔ b.comp = ~~~b.seq) ∧
    (seqOk b = true ↔ (b.seq.toNat + b.comp.toNat) % 256 = 255)

/-- R84: the five bits of the current registers, and that only five values are possible. -/
def Obligations.ReadPktStatusReturnsTheValidationResult : Prop :=
  (∀ w, decode ⟨0x814#12, w⟩ = .op .rdPktStatus) ∧
  ∀ s : State,
    let seqOk := s.block.seq.toNat + s.block.comp.toNat = 255
    let crcOk := s.block.crc = s.block.rxcrc
    let status : Word :=
      if seqOk ∧ crcOk then (if s.block.seq = 0x00#8 then 0x0000000F#32 else 0x00000017#32)
      else if seqOk then 0x00000001#32
      else if crcOk then 0x00000002#32
      else 0x00000000#32
    exec .rdPktStatus s = .next { s with outcomes := .ok (some status) :: s.outcomes }

/-- R76: HEADER and DATA split the valid packets by sequence 0, at most one is 1, and both are 0 when VALID is 0. -/
def Obligations.HeaderAndDataSplitTheValidPackets : Prop :=
  ∀ b : Block,
    (header b = true ↔ valid b = true ∧ b.seq = 0x00#8) ∧
    (data b = true ↔ valid b = true ∧ b.seq ≠ 0x00#8) ∧
    ¬(header b = true ∧ data b = true) ∧
    (valid b = false → header b = false ∧ data b = false)

/-- R86: the framing byte is loaded; KIND and PLEN bits of the operand, and the other packet registers, are left. -/
def Obligations.WritePktFrameLoadsTheFramingByte : Prop :=
  (∀ w, decode ⟨0x918#12, w⟩ = .op (.wrPktFrame w)) ∧
  ∀ (w : Word) (s : State), exec (.wrPktFrame w) s = .next
    { s with
      block := { s.block with frame := BitVec.ofNat 8 (w.toNat % 256) }
      outcomes := .ok none :: s.outcomes }

/-- R77 and R87: the word a read of PKT_FRAME returns, class by class. -/
def Obligations.ReadPktFrameClassifiesTheFramingByte : Prop :=
  (∀ w, decode ⟨0x818#12, w⟩ = .op .rdPktFrame) ∧
  (∀ s : State,
    let rdata : Word :=
      if s.block.frame = 0x01#8 then 0x00800101#32
      else if s.block.frame = 0x02#8 then 0x04000202#32
      else if s.block.frame = 0x04#8 then 0x00000304#32
      else if s.block.frame = 0x18#8 then 0x00000418#32
      else s.block.frame.setWidth 32
    exec .rdPktFrame s = .next { s with outcomes := .ok (some rdata) :: s.outcomes }) ∧
  ∀ frame : Byte,
    (kindField frame).toNat ≤ 4 ∧
    (frame = 0x01#8 → kindField frame = 1#4 ∧ plenField frame = 128#11) ∧
    (frame = 0x02#8 → kindField frame = 2#4 ∧ plenField frame = 1024#11) ∧
    (frame = 0x04#8 → kindField frame = 3#4 ∧ plenField frame = 0#11) ∧
    (frame = 0x18#8 → kindField frame = 4#4 ∧ plenField frame = 0#11) ∧
    (frame ≠ 0x01#8 ∧ frame ≠ 0x02#8 ∧ frame ≠ 0x04#8 ∧ frame ≠ 0x18#8 →
      kindField frame = 0#4 ∧ plenField frame = 0#11)

/-! ### The timeout counter -/

/-- R92: what TICK does with `EN` = 1, at saturation, and with `EN` = 0. -/
def Obligations.TickCountsAndFlagsWhileEnabled : Prop :=
  (∀ w, decode ⟨0x200#12, w⟩ = .op .tick) ∧
  ∀ s : State, exec .tick s = .next
    { s with
      block :=
        if s.block.en = true then
          { s.block with count := BitVec.ofNat 32 (min (s.block.count.toNat + 1) 0xFFFFFFFF), tickf := true }
        else s.block
      outcomes := .ok none :: s.outcomes }

/-- R93: what ACT does with `EN` = 1 and with `EN` = 0; `TICKF` is not changed. -/
def Obligations.ActivityClearsTheCountWhileEnabled : Prop :=
  (∀ w, decode ⟨0x201#12, w⟩ = .op .act) ∧
  ∀ s : State, exec .act s = .next
    { s with
      block := { s.block with count := if s.block.en = true then 0#32 else s.block.count }
      outcomes := .ok none :: s.outcomes }

/-- R94: EN is `wdata[0]`; CLR, `wdata[1]`, clears the count whatever EN is written. -/
def Obligations.WriteTmoCtrlSetsEnableAndClears : Prop :=
  (∀ w, decode ⟨0x920#12, w⟩ = .op (.wrTmoCtrl w)) ∧
  ∀ (w : Word) (s : State), exec (.wrTmoCtrl w) s = .next
    { s with
      block := { s.block with
                 en := decide (w.toNat % 2 = 1)
                 count := if w.toNat / 2 % 2 = 1 then 0#32 else s.block.count }
      outcomes := .ok none :: s.outcomes }

/-- R95, R97 and R98: TMO_CTRL reads `EN` in bit 0 and CLR as 0, TMO_MAX the threshold, TMO_COUNT the count; after RESET
and any run with no write of TMO_MAX, TMO_MAX reads the open parameter, and so it does in the state right after reset.
That the run also goes on past refused descriptors is the model's choice (log entry 5), no part of R97. -/
def Obligations.ReadsOfTmoCtrlTmoMaxAndTmoCountReturnTheirWords : Prop :=
  (∀ w, decode ⟨0x820#12, w⟩ = .op .rdTmoCtrl) ∧ (∀ w, decode ⟨0x824#12, w⟩ = .op .rdTmoMax) ∧
  (∀ w, decode ⟨0x828#12, w⟩ = .op .rdTmoCount) ∧
  (∀ s : State,
    exec .rdTmoCtrl s = .next
      { s with outcomes := .ok (some (if s.block.en = true then 0x00000001#32 else 0x00000000#32)) :: s.outcomes } ∧
    exec .rdTmoMax s = .next { s with outcomes := .ok (some s.block.max) :: s.outcomes } ∧
    exec .rdTmoCount s = .next { s with outcomes := .ok (some s.block.count) :: s.outcomes }) ∧
  readReg .tmoMax State.reset.block = Config.tmoMaxReset ∧
  ∀ (s t : State) (rs : List Request), exec .reset s = .next t → (∀ r ∈ rs, ∀ w, decode r ≠ .op (.wrTmoMax w)) →
    exec .rdTmoMax (runOps t rs) = .next
      { runOps t rs with outcomes := .ok (some Config.tmoMaxReset) :: (runOps t rs).outcomes }

/-- R96: the threshold is the whole operand; a value below the count makes EXCEEDED 1 at once, 0xFFFFFFFF makes it 0. -/
def Obligations.WriteTmoMaxSetsTheThreshold : Prop :=
  (∀ w, decode ⟨0x924#12, w⟩ = .op (.wrTmoMax w)) ∧
  ∀ (w : Word) (s : State), ∃ t, exec (.wrTmoMax w) s = .next t ∧
    t = { s with block := { s.block with max := w }, outcomes := .ok none :: s.outcomes } ∧
    (w.toNat < s.block.count.toNat → exceeded t.block = true) ∧ (w = 0xFFFFFFFF#32 → exceeded t.block = false)

/-- R100: TICKF in bit 1 and EXCEEDED in bit 0, from one state; the read clears neither. -/
def Obligations.ReadTmoStatusReturnsExceededAndTickFlag : Prop :=
  (∀ w, decode ⟨0x82C#12, w⟩ = .op .rdTmoStatus) ∧
  ∀ s : State, exec .rdTmoStatus s = .next
    { s with
      outcomes :=
        .ok (some (BitVec.ofNat 32 ((if s.block.tickf = true then 2 else 0)
          + (if s.block.max.toNat < s.block.count.toNat then 1 else 0)))) :: s.outcomes }

/-- R101: bit 1 = 1 clears `TICKF`; bit 0 and the others are ignored. -/
def Obligations.WriteTmoStatusClearsTheTickFlag : Prop :=
  (∀ w, decode ⟨0x92C#12, w⟩ = .op (.wrTmoStatus w)) ∧
  ∀ (w : Word) (s : State), exec (.wrTmoStatus w) s = .next
    { s with
      block := { s.block with tickf := s.block.tickf && decide (w.toNat / 2 % 2 = 0) }
      outcomes := .ok none :: s.outcomes }

/-- R88: `COUNT > MAX`, unsigned, whatever `EN` is; never with `MAX` = 0xFFFFFFFF; 0 again once the count is cleared or
`MAX` is raised to it. -/
def Obligations.ExceededIsTheUnsignedComparison : Prop :=
  ∀ b : Block,
    (exceeded b = true ↔ b.count.toNat > b.max.toNat) ∧
    (∀ e, exceeded { b with en := e } = exceeded b) ∧
    (b.max = 0xFFFFFFFF#32 → exceeded b = false) ∧
    exceeded { b with count := 0#32 } = false ∧
    ∀ m : Word, b.count.toNat ≤ m.toNat → exceeded { b with max := m } = false

/-- R89: armed with M < 0xFFFFFFFF, `EXCEEDED` is 0 after each of the first M counted ticks and 1 after the (M + 1)-th,
whatever else happens between but for what the rule shuts out. That the run also goes on past refused descriptors is the
model's choice (log entry 5), no part of R89. -/
def Obligations.TheThresholdTripsAtTickMaxPlusOne : Prop :=
  ∀ (s : State) (m : Word) (armed rs : List Request), m ≠ 0xFFFFFFFF#32 →
    Asm.assemble (.tmoarm m.toNat) = some armed → (∀ r ∈ rs, r.rearms = false) →
    let b := (runOps s (armed ++ rs)).block
    let n := countedTicks true rs
    (n ≤ m.toNat → exceeded b = false ∧ b.count.toNat = n) ∧
    (n = m.toNat + 1 → exceeded b = true ∧ b.count.toNat = n)

/-! ### Whole-machine rules -/

/-- R32: `TICKF` is set only by a TICK while `EN` = 1, and cleared only by a write of TMO_STATUS with bit 1 = 1 or by
RESET. That a step with nothing pending, and one that answers a bus error, is a next state with the block unchanged is log
entries 3 and 6. -/
def Obligations.OnlyTheseOperationsChangeTheTickFlag : Prop :=
  ∀ s s' : State, step s = .next s' → s'.block.tickf ≠ s.block.tickf →
    ∃ r rest, s.pending = r :: rest ∧
      ((s'.block.tickf = true ∧ decode r = .op .tick ∧ s.block.en = true) ∨
       (s'.block.tickf = false ∧
        (decode r = .op .reset ∨ ∃ w : Word, decode r = .op (.wrTmoStatus w) ∧ w.toNat / 2 % 2 = 1)))

/-- R99 and R110: the only ways to change `COUNT` are TICK, ACT, CLR and RESET. That a step with nothing pending, and one
that answers a bus error, is a next state with the block unchanged is log entries 3 and 6. -/
def Obligations.OnlyTheseOperationsChangeTheCount : Prop :=
  ∀ s s' : State, step s = .next s' → s'.block.count ≠ s.block.count →
    ∃ r rest, s.pending = r :: rest ∧
      ((decode r = .op .tick ∧ s.block.en = true ∧ s'.block.count.toNat = s.block.count.toNat + 1) ∨
       (s'.block.count = 0#32 ∧
        ((decode r = .op .act ∧ s.block.en = true) ∨ decode r = .op .reset ∨
          ∃ w : Word, decode r = .op (.wrTmoCtrl w) ∧ w.toNat / 2 % 2 = 1)))

/-- R32, R45 and the operation rules: an operation changes the reads of no register but those it is said to affect. -/
def Obligations.AnOperationLeavesEveryOtherRegisterAsItReads : Prop :=
  ∀ (i : Instr) (s : State), ∃ t, exec i s = .next t ∧ t.pending = s.pending ∧
    ∀ g, g ∉ i.affects → readReg g t.block = readReg g s.block

/-- R45: no read has a side effect; the listed operations are idempotent; a write of CRC_DATA and a counted TICK are
not. -/
def Obligations.ReadsHaveNoSideEffectAndTheListedOperationsAreIdempotent : Prop :=
  (∀ (g : Reg) (s : State), exec (readOf g) s = .next { s with outcomes := .ok (some (readReg g s.block)) :: s.outcomes }) ∧
  (∀ (i : Instr) (s t u : State), i.idempotent = true → exec i s = .next t → exec i t = .next u → u.block = t.block) ∧
  (∀ (w : Word) (s t u : State), exec (.wrCrcData w) s = .next t → exec (.wrCrcData w) t = .next u →
    u.block.crc = crcFold s.block.crc [BitVec.ofNat 8 w.toNat, BitVec.ofNat 8 w.toNat]) ∧
  (∃ (w : Word) (s t u : State), exec (.wrCrcData w) s = .next t ∧ exec (.wrCrcData w) t = .next u ∧ u.block ≠ t.block) ∧
  ∀ s t : State, s.block.en = true → s.block.count ≠ 0xFFFFFFFF#32 → exec .tick s = .next t →
    t.block.count.toNat = s.block.count.toNat + 1

/-- R42 and R43: reserved, W1 and WO bits read 0; reserved and RO bits of an operand are ignored; a write to a register
whose fields are all RO changes nothing, and a read of one whose fields are all WO or W1 returns 0. -/
def Obligations.ReservedBitsReadZeroAndAreIgnoredOnWrite : Prop :=
  (∀ (g : Reg) (b : Block), readReg g b &&& ~~~g.readableBits = 0#32) ∧
  ∀ (g : Reg) (w : Word) (s : State),
    (∃ t, exec (writeOf g w) s = .next t ∧ exec (writeOf g (w &&& g.writableBits)) s = .next t) ∧
    (g ∈ [.crcValue, .pktStatus, .tmoCount] →
      exec (writeOf g w) s = .next { s with outcomes := .ok none :: s.outcomes }) ∧
    (g ∈ [.crcCtrl, .crcData] →
      exec (readOf g) s = .next { s with outcomes := .ok (some 0x00000000#32) :: s.outcomes })

/-- R49, R63, R121: taking every TICK and ACTIVITY out of a run changes no read of a packet register, nor `EN`, nor `MAX`.
Both runs go on past a refused descriptor with the block as it was (log entry 5). -/
def Obligations.EventsNeverTouchThePacketRegisters : Prop :=
  ∀ (s : State) (rs : List Request),
    let t := (runOps s rs).block
    let u := (runOps s (rs.filter (fun r => !r.isEvent))).block
    (∀ g : Reg, g.isPacket = true → readReg g t = readReg g u) ∧ t.en = u.en ∧ t.max = u.max

/-- R90: while `EN` = 0, TICK and ACTIVITY change nothing of the block, in any number and order. -/
def Obligations.WhileDisabledEventsChangeNothing : Prop :=
  ∀ (s : State) (rs : List Request), s.block.en = false → (∀ r ∈ rs, r.isEvent = true) →
    (runOps s rs).block = s.block

/-- R122: n counted ticks with no clear between leave `TICKF` = 1 once, while `COUNT` counts every one of them, up to
saturation. -/
def Obligations.TicksCoalesceInTheFlagButNotInTheCount : Prop :=
  ∀ (s : State) (n : Nat), s.block.en = true →
    (runInstrs s (List.replicate (n + 1) .tick)).block =
      { s.block with
        tickf := true
        count := BitVec.ofNat 32 (min (s.block.count.toNat + (n + 1)) 0xFFFFFFFF) }

/-- R47: a TICK and an ACTIVITY at one instant take effect as two operations in either order; both orders are runs, and
they leave different counts. -/
def Obligations.ATickAndAnActivityAreAdmittedInEitherOrder : Prop :=
  ∀ s : State, s.block.en = true →
    (∃ t, core.run 2 { s with pending := [encode .tick, encode .act] } = .next t ∧ t.pending = [] ∧
      t.block = { s.block with count := 0#32, tickf := true }) ∧
    (∃ t, core.run 2 { s with pending := [encode .act, encode .tick] } = .next t ∧ t.pending = [] ∧
      t.block = { s.block with count := 1#32, tickf := true })

/-! ### Encoding -/

/-- R52: the decoder by the descriptor's fields read as numbers, check by check in the rule's order. -/
def Obligations.DecodeChecksTheFieldsInOrder : Prop :=
  ∀ r : Request,
    let size := r.desc.toNat / 1024
    let cls := r.desc.toNat / 256 % 4
    let sel := r.desc.toNat % 256
    (cls = 3 → decode r = .refuse .reservedClass) ∧
    (cls = 2 → size ≠ 0 → decode r = .refuse .eventSize) ∧
    (cls = 2 → size = 0 → decode r =
      if sel = 0 then .op .tick else if sel = 1 then .op .act else if sel = 2 then .op .reset
      else .refuse .reservedEvent) ∧
    (cls < 2 → size = 3 → decode r = .refuse .reservedSize) ∧
    (cls < 2 → size < 2 → decode r = .busError .badSize) ∧
    (cls < 2 → size = 2 → sel % 4 ≠ 0 → decode r = .busError .misaligned) ∧
    (cls < 2 → size = 2 → sel % 4 = 0 → (∀ g : Reg, g.offset.toNat ≠ sel) → decode r = .busError .unmapped) ∧
    (∀ g : Reg, size = 2 → g.offset.toNat = sel → cls = 0 → decode r = .op (readOf g)) ∧
    (∀ g : Reg, size = 2 → g.offset.toNat = sel → cls = 1 → decode r = .op (writeOf g r.wdata))

/-- R55: of the 4096 descriptors, 25 are operations, 2557 are refused and 1514 are bus errors, cause by cause. -/
def Obligations.DescriptorsFallIntoTheCountedClasses : Prop :=
  let count (p : Decoded → Bool) := (List.range 4096).countP (fun d => p (decode ⟨BitVec.ofNat 12 d, 0#32⟩))
  count (fun | .op _ => true | _ => false) = 25 ∧
  count (fun | .refuse _ => true | _ => false) = 2557 ∧
  count (fun | .busError _ => true | _ => false) = 1514 ∧
  count (· == .refuse .reservedClass) = 1024 ∧ count (· == .refuse .eventSize) = 768 ∧
  count (· == .refuse .reservedEvent) = 253 ∧ count (· == .refuse .reservedSize) = 512 ∧
  count (· == .busError .badSize) = 1024 ∧ count (· == .busError .misaligned) = 384 ∧
  count (· == .busError .unmapped) = 106

/-- A few words of the opcode map, written out bit by bit from R51's fields. -/
def Obligations.WrittenOutWordsDecode : Prop :=
  decode ⟨0b100000001000#12, 0#32⟩ = .op .rdCrcValue ∧
  decode ⟨0b100100000100#12, 0x00000131#32⟩ = .op (.wrCrcData 0x00000131#32) ∧
  decode ⟨0b100100001100#12, 0x0000FE01#32⟩ = .op (.wrPktSeq 0x0000FE01#32) ∧
  decode ⟨0b100100100000#12, 0x00000003#32⟩ = .op (.wrTmoCtrl 0x00000003#32) ∧
  decode ⟨0b001000000001#12, 0#32⟩ = .op .act ∧
  decode ⟨0b001000000010#12, 0#32⟩ = .op .reset

/-- R51, R52, R54: decoding inverts encoding on every well-formed operation, with every operand, and encoding inverts
decoding on every canonical request, so no two requests spell one operation. -/
def Obligations.DecodeAndEncodeAreInverse : Prop :=
  (∀ i : Instr, i.wf = true → decode (encode i) = .op i ∧ (encode i).wf = true) ∧
  ∀ (r : Request) (i : Instr), r.wf = true → decode r = .op i → encode i = r

/-- Log entry 4 (the model's choice): as one number of 48 bits, an operation's request loses nothing, and the operation
presented so is the one the next step runs. -/
def Obligations.APresentedTableWordRunsItsOperation : Prop :=
  ∀ (i : Instr) (s : State),
    decodeTableWord 48 (tableWord (encode i)) = some i ∧
    step (s.withFetchWord 48 (tableWord (encode i))) = exec i s

/-! ### Steps and runs -/

/-- R46 and R52: when the next pending request decodes to an operation, a step is exec of it on the state without that
request. -/
def Obligations.AStepRunsTheDecodedOperation : Prop :=
  ∀ (s : State) (r : Request) (rest : List Request) (i : Instr), s.pending = r :: rest → decode r = .op i →
    step s = exec i { s with pending := rest }

/-- R102, R103, R106: an access that fails a check ends with `ERR` of the first failing check's cause; the block and the
rest of the run are as they were, and the run goes on. None of the 25 operations raises a bus error. That `step` answers a
next state with the error recorded is log entry 6 (DEDUCED from R102 and R106). -/
def Obligations.ABusErrorChangesNothingAndTheRunGoesOn : Prop :=
  [BusErrorCause.badSize, .misaligned, .unmapped].map BusErrorCause.code = [1, 2, 3] ∧
  (∀ (i : Instr) (s : State) (f : Fault), exec i s ≠ .fault f) ∧
  ∀ (s : State) (r : Request) (rest : List Request), s.pending = r :: rest → r.cls.toNat < 2 → r.size.toNat ≠ 3 →
    (∀ g : Reg, ¬(r.size = 2#2 ∧ r.sel = g.offset)) →
    let cause : BusErrorCause :=
      if r.size.toNat < 2 then .badSize else if r.sel.toNat % 4 ≠ 0 then .misaligned else .unmapped
    step s = .next { s with pending := rest, outcomes := .err cause :: s.outcomes }

/-- R104: a descriptor that spells no operation has the outcome REFUSED, in every state, which leaves the block as it was
and a mark that stays whatever follows: the clauses about `perform` and `runOps`. That `step` refuses and does not go past
such a descriptor is the model's choice (log entry 5). -/
def Obligations.ARefusedDescriptorHasNoMeaning : Prop :=
  ∀ (s : State) (r : Request) (rest : List Request), s.pending = r :: rest →
    (r.cls = 3#2 ∨ (r.cls = 2#2 ∧ (r.size ≠ 0#2 ∨ 3 ≤ r.sel.toNat)) ∨ (r.cls.toNat < 2 ∧ r.size = 3#2)) →
    ∃ why, step s = .refused (.reservedDescriptor why) ∧
      perform s r = { s with outcomes := .refused why :: s.outcomes } ∧
      ∀ later : List Request, why ∈ (runOps (perform s r) later).refusalMarks

/-- R10: every operation adds exactly one outcome and takes none away; there is one fault mark for every `ERR` and one
refusal mark for every `REFUSED`, and neither kind is ever cleared. A run goes on past both (log entries 5 and 6). -/
def Obligations.MarksAreKeptForEveryErrorAndNeverCleared : Prop :=
  ∀ (s : State) (rs : List Request),
    (∃ new, (runOps s rs).outcomes = new ++ s.outcomes ∧ new.length = rs.length) ∧
    (∃ new, (runOps s rs).faultMarks = new ++ s.faultMarks ∧
      new.length = rs.countP (fun r => match decode r with | .busError _ => true | _ => false)) ∧
    (∃ new, (runOps s rs).refusalMarks = new ++ s.refusalMarks ∧
      new.length = rs.countP (fun r => match decode r with | .refuse _ => true | _ => false))

/-- R11 and R118: while the agents keep their duty the machine never stops, and the duty stays kept. That a step with
nothing pending answers the same state is the model's choice (log entry 3), and that a step goes on after a bus error is
log entry 6 (DEDUCED from R102 and R106). -/
def Obligations.ADutifulMachineNeverStops : Prop :=
  ∀ s : State, s.dutiful = true → ∃ s', step s = .next s' ∧ s'.dutiful = true

/-- The duty holds at reset, where nothing has been presented (log entry 3). -/
def Obligations.ResetIsDutiful : Prop :=
  State.reset.dutiful = true

/-- R46: the steps of the machine are the run of its pending operations, one at a time in their order. That the steps go
on after a bus error is log entry 6 (DEDUCED from R102 and R106). -/
def Obligations.StepsAreTheRunOfThePendingOperations : Prop :=
  ∀ s : State, s.dutiful = true →
    core.run s.pending.length s = .next (runOps { s with pending := [] } s.pending)

/-! ### The window, the assembler and the host -/

/-- R13 and R34: the host's word access at `BLOCK_BASE + off` is the bus access at offset `off`, for every base. That an
address outside the window gives no request, for a read or a write of any width, is log entry 2 (DEDUCED). -/
def Obligations.TheWindowIsReachedAtBlockBase : Prop :=
  Config.blockBase % 256 = 0 ∧
  (∀ off : Byte, memReadRequest (Config.blockBase + off.toNat) 4 = some (busRead off)) ∧
  (∀ (off : Byte) (w : Word), memWriteRequest (Config.blockBase + off.toNat) 4 w = some (busWrite off w)) ∧
  ∀ addr bytes, addr < Config.blockBase ∨ Config.blockBase + 256 ≤ addr →
    memReadRequest addr bytes = none ∧ ∀ w, memWriteRequest addr bytes w = none

/-- R59: `rd REG` is `rd.w @offset(REG)` and `wr REG, v` the like; each assembles to its operation's encoding, and so do
`tick`, `act` and `reset`; a raw form of any size assembles to the descriptor `{SIZE, CLASS, off}`; a value or an offset
out of range is rejected, in every line that has one. -/
def Obligations.AssemblerLinesAssembleToTheirOperations : Prop :=
  (∀ g : Reg, Asm.assemble (.rd g) = some [encode (readOf g)] ∧
    Asm.assemble (.rdRaw .word g.offset.toNat) = some [encode (readOf g)]) ∧
  (∀ (g : Reg) (w : Word), Asm.assemble (.wr g w.toNat) = some [encode (writeOf g w)] ∧
    Asm.assemble (.wrRaw .word g.offset.toNat w.toNat) = some [encode (writeOf g w)]) ∧
  (Asm.assemble .tick = some [encode .tick] ∧ Asm.assemble .act = some [encode .act] ∧
    Asm.assemble .reset = some [encode .reset]) ∧
  (∀ (z : RawSize) (size : Nat) (off : Byte) (w : Word), (z, size) ∈ [(.byte, 0), (.half, 1), (.word, 2)] →
    Asm.assemble (.rdRaw z off.toNat) = some [⟨BitVec.ofNat 12 (1024 * size + off.toNat), 0#32⟩] ∧
    Asm.assemble (.wrRaw z off.toNat w.toNat) = some [⟨BitVec.ofNat 12 (1024 * size + 256 + off.toNat), w⟩]) ∧
  (∀ v : Nat, 2 ^ 32 ≤ v →
    (∀ g : Reg, Asm.assemble (.wr g v) = none) ∧ ∀ (z : RawSize) (off : Nat), Asm.assemble (.wrRaw z off v) = none) ∧
  (∀ (z : RawSize) (off v : Nat), 256 ≤ off →
    Asm.assemble (.rdRaw z off) = none ∧ Asm.assemble (.wrRaw z off v) = none)

/-- R60: what each pseudo-operation expands to, in order. R60 gives `crcfill`'s count no range; that every count assembles,
0 to no operation, is the model's choice (log entry 7). -/
def Obligations.PseudoOperationsExpandAsListed : Prop :=
  Asm.assemble .crcinit = some [encode (.wrCrcCtrl 0x1#32)] ∧
  (∀ b : Byte, Asm.assemble (.crcfeed b.toNat) = some [encode (.wrCrcData (b.setWidth 32))]) ∧
  (∀ (b : Byte) (bs : List Byte), Asm.assemble (.crcblk ((b :: bs).map BitVec.toNat)) =
    some ((b :: bs).map (fun x => encode (.wrCrcData (x.setWidth 32))))) ∧
  (∀ (b : Byte) (n : Nat), Asm.assemble (.crcfill b.toNat n) =
    some (List.replicate n (encode (.wrCrcData (b.setWidth 32))))) ∧
  (∀ s c : Byte, Asm.assemble (.ldseq s.toNat c.toNat) = some [encode (.wrPktSeq ((c ++ s).setWidth 32))]) ∧
  (∀ hi lo : Byte, Asm.assemble (.ldrx hi.toNat lo.toNat) = some [encode (.wrPktRxcrc ((hi ++ lo).setWidth 32))]) ∧
  (∀ b : Byte, Asm.assemble (.ldframe b.toNat) = some [encode (.wrPktFrame (b.setWidth 32))]) ∧
  (∀ m : Word, Asm.assemble (.tmoarm m.toNat) = some [encode (.wrTmoMax m), encode (.wrTmoCtrl 0x3#32)]) ∧
  Asm.assemble .tmoclr = some [encode (.wrTmoCtrl 0x3#32)] ∧
  Asm.assemble .tmostop = some [encode (.wrTmoCtrl 0x0#32)] ∧
  Asm.assemble .tickack = some [encode (.wrTmoStatus 0x2#32)]

/-- R109: each of the document's errors in which the block has a part is a value the host reads. SenderCancelled is stated
as the transfer phase's sign, KIND = 4, in every block state; in discovery R109 has the host compare the byte itself (log
entry 10, DEDUCED). -/
def Obligations.TheDocumentsErrorsAreValuesTheHostReads : Prop :=
  ∀ b : Block,
    (b.shows .noSenderDetected = true ↔ (readReg .tmoStatus b).toNat % 2 = 1) ∧
    (b.shows .senderCancelled = true ↔ (readReg .pktFrame b).toNat / 256 % 16 = 4) ∧
    (b.shows .packetCorrupt = true ↔ (readReg .pktStatus b).toNat / 4 % 2 = 0) ∧
    (b.shows .protocolDesync = true ↔ (readReg .pktFrame b).toNat / 256 % 16 = 0)

/-- R58: a packet with the declared size is found again in its bytes on the wire; a ShortData packet is 133 bytes and a
LongData packet 1029. -/
def Obligations.APacketIsItsWireBytes : Prop :=
  ∀ p : Packet, p.sized = true →
    Packet.ofWire p.wire = some p ∧
    (p.frame = 0x01#8 → p.wire.length = 133) ∧ (p.frame = 0x02#8 → p.wire.length = 1029)

/-- R75, R76, R79: whatever events fall between, the host's RECEIVE operations leave VALID exactly when the packet is
valid as the document defines it, and the read of PKT_STATUS sends the host where R79 says. The operations stand in R79's
order, although R117 lets three of the writes come in any order (log entry 10, DEDUCED). -/
def Obligations.ReceivingAPacketValidatesIt : Prop :=
  ∀ (s : State) (p : Packet) (rs : List Request),
    rs.filter (fun r => !r.isEvent) = (receiveOps p).map encode →
    let b := (runOps s rs).block
    valid b = p.isValid ∧ b.frame = p.frame ∧
    receiveMove (readReg .pktStatus b) =
      if p.isValid then (if p.seq = 0x00#8 then .ackThenStart else .writePayload) else .nak
end

