-- ==== Sys2Proof/Laws/Decode.lean ====
section
/-! SUPPORT. The decoder on the two shapes of a bus access to a register, and the offsets of the window's map. -/

namespace Sys2Proof

theorem Reg.mem_all (g : Reg) : g ∈ Reg.all := by cases g <;> decide

/-- No two registers share an offset (R35). -/
theorem Reg.offset_injective : Function.Injective Reg.offset := by
  intro a b
  cases a <;> cases b <;> decide

theorem regAt_offset (g : Reg) : regAt g.offset = some g := by cases g <;> decide

/-- A word read of a register's offset, whatever stands in the field no read looks at (R52). -/
theorem decode_wordRead (g : Reg) (w : Word) : decode ⟨0b10#2 ++ 0b00#2 ++ g.offset, w⟩ = .op (readOf g) := by
  cases g <;> simp [decode, decodeBus, Request.cls, Request.size, Request.sel, Reg.offset, regAt, Reg.all, readOf]

/-- A word write of a register's offset (R52). -/
theorem decode_wordWrite (g : Reg) (w : Word) : decode ⟨0b10#2 ++ 0b01#2 ++ g.offset, w⟩ = .op (writeOf g w) := by
  cases g <;> simp [decode, decodeBus, Request.cls, Request.size, Request.sel, Reg.offset, regAt, Reg.all, writeOf]

theorem Request.onOperation_op {α : Type} {r : Request} {i : Instr} (h : decode r = .op i) (a : α) (f : Instr → α) :
    r.onOperation a f = f i := by
  simp [Request.onOperation, h]

theorem Request.onOperation_busError {α : Type} {r : Request} {c : BusErrorCause} (h : decode r = .busError c) (a : α)
    (f : Instr → α) : r.onOperation a f = a := by
  simp [Request.onOperation, h]

theorem Request.onOperation_refuse {α : Type} {r : Request} {w : RefuseReason} (h : decode r = .refuse w) (a : α)
    (f : Instr → α) : r.onOperation a f = a := by
  simp [Request.onOperation, h]

end Sys2Proof
end

