-- ==== Sys2Proof/Laws/State.lean ====
section
/-! SUPPORT. One lemma per field per update of the state, so that no proof unfolds a record update. -/

namespace Sys2Proof.Machine

variable (s : State) (o : OpOutcome) (r : Request) (c : BusErrorCause)

@[simp] theorem State.yielding_block : (s.yielding o).block = s.block := rfl
@[simp] theorem State.yielding_pending : (s.yielding o).pending = s.pending := rfl
@[simp] theorem State.yielding_outcomes : (s.yielding o).outcomes = o :: s.outcomes := rfl

@[simp] theorem State.presenting_block : (s.presenting r).block = s.block := rfl
@[simp] theorem State.presenting_pending : (s.presenting r).pending = r :: s.pending := rfl
@[simp] theorem State.presenting_outcomes : (s.presenting r).outcomes = s.outcomes := rfl

@[simp] theorem takeBusError_block : (takeBusError c s).block = s.block := rfl
@[simp] theorem takeBusError_pending : (takeBusError c s).pending = s.pending := rfl
@[simp] theorem takeBusError_outcomes : (takeBusError c s).outcomes = .err c :: s.outcomes := rfl

@[simp] theorem State.position_yielding : (s.yielding o).position = s.position + 1 := rfl
@[simp] theorem State.yielded_yielding : (s.yielding o).yielded = s.yielded ++ [o] := by
  simp [State.yielded]

theorem State.faultMarks_yielding :
    (s.yielding o).faultMarks = o.faultMark.toList ++ s.faultMarks := by
  cases o <;> rfl

theorem State.refusalMarks_yielding :
    (s.yielding o).refusalMarks = o.refusalMark.toList ++ s.refusalMarks := by
  cases o <;> rfl

end Sys2Proof.Machine
end

