-- ==== Sys2Proof/Laws/Ops.lean ====
section
/-! SUPPORT. What each shared operation can do, said once. -/

namespace Sys2Proof.Machine

/-! ### How an operation ends -/

theorem returnRead_eq_next {v : Word} {s t : State} :
    returnRead v s = .next t ↔ t = s.yielding (.ok (some v)) := by
  simp [returnRead, eq_comm]

theorem commit_eq_next {b : Block} {s t : State} :
    commit b s = .next t ↔ t = { s with block := b, outcomes := .ok none :: s.outcomes } := by
  simp [commit, State.yielding, eq_comm]

/-! ### The CRC shift is linear and loses nothing -/

@[simp] theorem crcShift_zero : crcShift 0#16 = 0#16 := by decide

theorem crcShift_xor (a b : Half) : crcShift (a ^^^ b) = crcShift a ^^^ crcShift b := by
  unfold crcShift
  rw [BitVec.getLsbD_xor, BitVec.shiftLeft_xor_distrib]
  have cancel (x y z : Half) : (x ^^^ z) ^^^ (y ^^^ z) = x ^^^ y := by
    rw [BitVec.xor_comm y, BitVec.xor_assoc, ← BitVec.xor_assoc z, BitVec.xor_self, BitVec.zero_xor]
  cases a.getLsbD 15 <;> cases b.getLsbD 15 <;> simp only [Bool.xor_false, Bool.xor_true, Bool.not_true,
    Bool.not_false, if_true, if_false, Bool.false_eq_true, cancel] <;> ac_rfl

/-- The feedback sets bit 0, which the shift leaves clear, so the top bit is never lost. -/
theorem crcShift_eq_zero {c : Half} : crcShift c = 0#16 ↔ c = 0#16 := by
  refine ⟨fun h => ?_, fun h => h ▸ crcShift_zero⟩
  cases hc : c.getLsbD 15 <;> simp only [crcShift, hc] at h
  · refine BitVec.eq_of_getLsbD_eq fun i hi => ?_
    rcases Nat.lt_or_ge i 15 with hlt | hge
    · have := congrArg (fun x : Half => x.getLsbD (i + 1)) h
      simpa [show i + 1 < 16 by omega, BitVec.getLsbD_eq_getElem hi] using this
    · obtain rfl : i = 15 := by omega
      simpa using hc
  · have := congrArg (fun x : Half => x.getLsbD 0) h
    simp at this

theorem crcShift_injective : Function.Injective crcShift := fun a b h => by
  have : crcShift (a ^^^ b) = 0#16 := by rw [crcShift_xor, h, BitVec.xor_self]
  exact BitVec.xor_eq_zero_iff.mp (crcShift_eq_zero.mp this)

@[simp] theorem crcShifts_zero (c : Half) : crcShifts 0 c = c := rfl
@[simp] theorem crcShifts_succ (n : Nat) (c : Half) : crcShifts (n + 1) c = crcShifts n (crcShift c) := rfl

theorem crcShifts_add (m n : Nat) (c : Half) : crcShifts (m + n) c = crcShifts n (crcShifts m c) := by
  induction m generalizing c with
  | zero => simp
  | succ m ih => rw [Nat.succ_add, crcShifts_succ, ih, crcShifts_succ]

theorem crcShifts_xor (n : Nat) (a b : Half) : crcShifts n (a ^^^ b) = crcShifts n a ^^^ crcShifts n b := by
  induction n generalizing a b with
  | zero => rfl
  | succ n ih => rw [crcShifts_succ, crcShift_xor, ih, crcShifts_succ, crcShifts_succ]

theorem crcShifts_injective (n : Nat) : Function.Injective (crcShifts n) := by
  induction n with
  | zero => exact fun _ _ h => h
  | succ n ih => exact fun _ _ h => crcShift_injective (ih h)

/-! ### The fold over bytes (R62) -/

@[simp] theorem crcFold_nil (c : Half) : crcFold c [] = c := rfl
@[simp] theorem crcFold_cons (c : Half) (b : Byte) (bs : List Byte) :
    crcFold c (b :: bs) = crcFold (crcStep c b) bs := rfl

theorem crcFold_append (c : Half) (as bs : List Byte) : crcFold c (as ++ bs) = crcFold (crcFold c as) bs :=
  List.foldl_append

/-- A byte step loses nothing of the register. -/
theorem crcStep_injective_left (b : Byte) : Function.Injective (crcStep · b) := fun a c h => by
  have := crcShifts_injective 8 h
  exact (BitVec.xor_left_inj _).mp this

/-- A byte step loses nothing of the byte. -/
theorem crcStep_injective_right (c : Half) : Function.Injective (crcStep c) := fun a b h => by
  have h := (BitVec.xor_right_inj _).mp (crcShifts_injective 8 h)
  refine BitVec.eq_of_getLsbD_eq fun i hi => ?_
  have := congrArg (fun x : Half => x.getLsbD (i + 8)) h
  simpa [show i + 8 < 16 by omega, show i < 16 by omega] using this

end Sys2Proof.Machine
end

