-- ==== Sys2Proof/Laws/Exec.lean ====
section
/-! SUPPORT. What exec, one step and one operation of a run can do, said once. -/

namespace Sys2Proof.Machine

/-- Every operation of the opcode map ends OK: it may write the block, leaves the operations still to come, and yields
one outcome (R10, R102: none of the 25 raises a bus error). -/
theorem exec_shape (i : Instr) (s : State) :
    ∃ b v, exec i s = .next { block := b, pending := s.pending, outcomes := .ok v :: s.outcomes } := by
  cases i <;> exact ⟨_, _, rfl⟩

/-- What is pending and what was yielded before have no part in what an operation does to the block. -/
theorem exec_block_congr {i : Instr} {s s' t t' : State} (hb : s.block = s'.block)
    (h : exec i s = .next t) (h' : exec i s' = .next t') : t.block = t'.block := by
  cases i <;> simp only [exec] at h h' <;> cases h <;> cases h' <;> simp [hb, State.yielding]

theorem step_nil {s : State} (h : s.pending = []) : step s = .next s := by
  simp [step, advance, h]

theorem step_cons {s : State} {r : Request} {rest : List Request} (h : s.pending = r :: rest) :
    step s = moveOn { s with pending := rest } (operate r { s with pending := rest }) := by
  simp [step, advance, h]

/-- If a step answers a next state, either nothing was pending, or the first pending request was an operation and ran,
or it was a bus error and was answered. -/
theorem step_cases {s s' : State} (h : step s = .next s') :
    (s.pending = [] ∧ s' = s) ∨
    (∃ r rest i, s.pending = r :: rest ∧ decode r = .op i ∧ exec i { s with pending := rest } = .next s') ∨
    (∃ r rest c, s.pending = r :: rest ∧ decode r = .busError c ∧
      s' = { s with pending := rest, outcomes := .err c :: s.outcomes }) := by
  cases hp : s.pending with
  | nil =>
    rw [step_nil hp] at h
    exact .inl ⟨rfl, by injection h with h; exact h.symm⟩
  | cons r rest =>
    rw [step_cons hp] at h
    cases hd : decode r with
    | op i =>
      obtain ⟨b, v, he⟩ := exec_shape i { s with pending := rest }
      simp only [operate, hd, he, moveOn] at h
      exact .inr (.inl ⟨r, rest, i, rfl, hd, he.trans h⟩)
    | busError c =>
      simp only [operate, hd, moveOn] at h
      injection h with h
      exact .inr (.inr ⟨r, rest, c, rfl, hd, h.symm⟩)
    | refuse w => simp [operate, hd, moveOn] at h

theorem perform_op {s t : State} {r : Request} {i : Instr} (hd : decode r = .op i) (h : exec i s = .next t) :
    perform s r = t := by
  simp [perform, hd, h]

theorem perform_busError {s : State} {r : Request} {c : BusErrorCause} (hd : decode r = .busError c) :
    perform s r = s.yielding (.err c) := by
  simp [perform, hd, takeBusError]

theorem perform_refuse {s : State} {r : Request} {w : RefuseReason} (hd : decode r = .refuse w) :
    perform s r = s.yielding (.refused w) := by
  simp [perform, hd]

@[simp] theorem runOps_nil (s : State) : runOps s [] = s := rfl
@[simp] theorem runOps_cons (s : State) (r : Request) (rs : List Request) :
    runOps s (r :: rs) = runOps (perform s r) rs := rfl

theorem runOps_append (s : State) (as bs : List Request) : runOps s (as ++ bs) = runOps (runOps s as) bs :=
  List.foldl_append

end Sys2Proof.Machine
end

