-- ==== Sys2Proof/Laws/PerInstr.lean ====
section
/-! SUPPORT. One lemma per operation: its encoding is canonical, and is a bus write's exactly when it carries an operand. -/

namespace Sys2Proof.Laws

/-- The encoding of an operation carries an operand "exactly when CLASS = 01" (R51). -/
def EncodeCanonical.Statement (i : Instr) : Prop :=
  (encode i).wf = true ∧ ((encode i).cls = 0b01#2 ↔ i.operand.isSome = true)

namespace EncodeCanonical

/-- A bus write of any word: CLASS is 01 and the operand is there. -/
theorem of_write {i : Instr} {w : Word} (d : Descriptor) (hd : i.descriptor = d) (hc : d.extractLsb' 8 2 = 0b01#2)
    (ho : i.operand = some w) : Statement i := by
  simp [Statement, Request.wf, Request.cls, encode, hd, hc, ho]

/-- A read or an event: CLASS is not 01 and the word is 0. -/
theorem of_bare {i : Instr} (d : Descriptor) (hd : i.descriptor = d) (hc : d.extractLsb' 8 2 ≠ 0b01#2)
    (ho : i.operand = none) : Statement i := by
  simp [Statement, Request.wf, Request.cls, encode, hd, hc, ho]

theorem rdCrcCtrl : Statement .rdCrcCtrl := of_bare 0x800#12 rfl (by decide) rfl
theorem wrCrcCtrl (wdata : Word) : Statement (.wrCrcCtrl wdata) := of_write 0x900#12 rfl (by decide) rfl
theorem rdCrcData : Statement .rdCrcData := of_bare 0x804#12 rfl (by decide) rfl
theorem wrCrcData (wdata : Word) : Statement (.wrCrcData wdata) := of_write 0x904#12 rfl (by decide) rfl
theorem rdCrcValue : Statement .rdCrcValue := of_bare 0x808#12 rfl (by decide) rfl
theorem wrCrcValue (wdata : Word) : Statement (.wrCrcValue wdata) := of_write 0x908#12 rfl (by decide) rfl
theorem rdPktSeq : Statement .rdPktSeq := of_bare 0x80C#12 rfl (by decide) rfl
theorem wrPktSeq (wdata : Word) : Statement (.wrPktSeq wdata) := of_write 0x90C#12 rfl (by decide) rfl
theorem rdPktRxcrc : Statement .rdPktRxcrc := of_bare 0x810#12 rfl (by decide) rfl
theorem wrPktRxcrc (wdata : Word) : Statement (.wrPktRxcrc wdata) := of_write 0x910#12 rfl (by decide) rfl
theorem rdPktStatus : Statement .rdPktStatus := of_bare 0x814#12 rfl (by decide) rfl
theorem wrPktStatus (wdata : Word) : Statement (.wrPktStatus wdata) := of_write 0x914#12 rfl (by decide) rfl
theorem rdPktFrame : Statement .rdPktFrame := of_bare 0x818#12 rfl (by decide) rfl
theorem wrPktFrame (wdata : Word) : Statement (.wrPktFrame wdata) := of_write 0x918#12 rfl (by decide) rfl
theorem rdTmoCtrl : Statement .rdTmoCtrl := of_bare 0x820#12 rfl (by decide) rfl
theorem wrTmoCtrl (wdata : Word) : Statement (.wrTmoCtrl wdata) := of_write 0x920#12 rfl (by decide) rfl
theorem rdTmoMax : Statement .rdTmoMax := of_bare 0x824#12 rfl (by decide) rfl
theorem wrTmoMax (wdata : Word) : Statement (.wrTmoMax wdata) := of_write 0x924#12 rfl (by decide) rfl
theorem rdTmoCount : Statement .rdTmoCount := of_bare 0x828#12 rfl (by decide) rfl
theorem wrTmoCount (wdata : Word) : Statement (.wrTmoCount wdata) := of_write 0x928#12 rfl (by decide) rfl
theorem rdTmoStatus : Statement .rdTmoStatus := of_bare 0x82C#12 rfl (by decide) rfl
theorem wrTmoStatus (wdata : Word) : Statement (.wrTmoStatus wdata) := of_write 0x92C#12 rfl (by decide) rfl
theorem tick : Statement .tick := of_bare 0x200#12 rfl (by decide) rfl
theorem act : Statement .act := of_bare 0x201#12 rfl (by decide) rfl
theorem reset : Statement .reset := of_bare 0x202#12 rfl (by decide) rfl

end EncodeCanonical

end Sys2Proof.Laws
end

