-- ==== Sys2Proof/Tests/Slice0.lean ====
section
/-! SUPPORT. Small tests. Expected values are from the spec's test vectors (spec/95), its rules' examples, or words written
out from R51's fields; then one witness for the hypotheses of each statement that has some. -/

namespace Sys2Proof.Tests

open Sys2Proof Sys2Proof.Machine

/-! ### WellFormed: each check refuses an ill-formed term -/

theorem test_wf_refuses_an_operand_on_a_read : Request.wf ⟨0x800#12, 1#32⟩ = false := by decide
theorem test_wf_refuses_an_operand_on_an_event : Request.wf ⟨0x200#12, 1#32⟩ = false := by decide
theorem test_wf_admits_an_operand_on_a_write : Request.wf ⟨0x900#12, 1#32⟩ = true := by decide
theorem test_wf_refuses_a_value_past_32_bits : AsmLine.wf (.wr .tmoMax 4294967296) = false := by decide
theorem test_wf_admits_the_largest_value : AsmLine.wf (.wr .tmoMax 4294967295) = true := by decide
theorem test_wf_refuses_an_offset_past_255 : AsmLine.wf (.rdRaw .byte 256) = false := by decide
theorem test_wf_refuses_a_raw_write_value : AsmLine.wf (.wrRaw .half 0x24 4294967296) = false := by decide
theorem test_wf_refuses_a_byte_past_255 : AsmLine.wf (.crcfeed 256) = false := by decide
theorem test_wf_refuses_an_empty_block : AsmLine.wf (.crcblk []) = false := by decide
theorem test_wf_refuses_a_pair_of_wide_bytes : AsmLine.wf (.ldseq 1 256) = false ∧ AsmLine.wf (.ldrx 256 0) = false := by
  decide
theorem test_wf_refuses_a_wide_threshold : AsmLine.wf (.tmoarm 4294967296) = false := by decide
theorem test_wf_admits_every_operation : Instr.wf (.wrTmoMax 0xFFFFFFFF#32) = true := by decide

/-! ### Decode: words written out bit by bit as SIZE, CLASS, SEL (R51), one per operation -/

theorem test_decode_crc_family :
    decode ⟨0b10_00_00000000#12, 0#32⟩ = .op .rdCrcCtrl ∧
    decode ⟨0b10_01_00000000#12, 1#32⟩ = .op (.wrCrcCtrl 1#32) ∧
    decode ⟨0b10_00_00000100#12, 0#32⟩ = .op .rdCrcData ∧
    decode ⟨0b10_01_00000100#12, 0x131#32⟩ = .op (.wrCrcData 0x131#32) ∧
    decode ⟨0b10_00_00001000#12, 0#32⟩ = .op .rdCrcValue ∧
    decode ⟨0b10_01_00001000#12, 0xFFFF#32⟩ = .op (.wrCrcValue 0xFFFF#32) := by decide

theorem test_decode_packet_family :
    decode ⟨0b10_00_00001100#12, 0#32⟩ = .op .rdPktSeq ∧
    decode ⟨0b10_01_00001100#12, 0xFE01#32⟩ = .op (.wrPktSeq 0xFE01#32) ∧
    decode ⟨0b10_00_00010000#12, 0#32⟩ = .op .rdPktRxcrc ∧
    decode ⟨0b10_01_00010000#12, 0xF8B0#32⟩ = .op (.wrPktRxcrc 0xF8B0#32) ∧
    decode ⟨0b10_00_00010100#12, 0#32⟩ = .op .rdPktStatus ∧
    decode ⟨0b10_01_00010100#12, 0x1F#32⟩ = .op (.wrPktStatus 0x1F#32) ∧
    decode ⟨0b10_00_00011000#12, 0#32⟩ = .op .rdPktFrame ∧
    decode ⟨0b10_01_00011000#12, 2#32⟩ = .op (.wrPktFrame 2#32) := by decide

theorem test_decode_timeout_family :
    decode ⟨0b10_00_00100000#12, 0#32⟩ = .op .rdTmoCtrl ∧
    decode ⟨0b10_01_00100000#12, 3#32⟩ = .op (.wrTmoCtrl 3#32) ∧
    decode ⟨0b10_00_00100100#12, 0#32⟩ = .op .rdTmoMax ∧
    decode ⟨0b10_01_00100100#12, 10#32⟩ = .op (.wrTmoMax 10#32) ∧
    decode ⟨0b10_00_00101000#12, 0#32⟩ = .op .rdTmoCount ∧
    decode ⟨0b10_01_00101000#12, 0#32⟩ = .op (.wrTmoCount 0#32) ∧
    decode ⟨0b10_00_00101100#12, 0#32⟩ = .op .rdTmoStatus ∧
    decode ⟨0b10_01_00101100#12, 2#32⟩ = .op (.wrTmoStatus 2#32) := by decide

theorem test_decode_events :
    decode ⟨0b00_10_00000000#12, 0#32⟩ = .op .tick ∧
    decode ⟨0b00_10_00000001#12, 0#32⟩ = .op .act ∧
    decode ⟨0b00_10_00000010#12, 0#32⟩ = .op .reset := by decide

/-- V-DEC-01 to V-DEC-12. -/
theorem test_decode_bus_errors :
    [0x000#12, 0x014#12, 0x01D#12, 0x41D#12, 0x524#12].map (fun d => decode ⟨d, 0#32⟩)
      = List.replicate 5 (.busError .badSize) ∧
    [0x801#12, 0x82A#12, 0x9FF#12].map (fun d => decode ⟨d, 0#32⟩) = List.replicate 3 (.busError .misaligned) ∧
    [0x81C#12, 0x91C#12, 0x830#12, 0x8FC#12].map (fun d => decode ⟨d, 0#32⟩)
      = List.replicate 4 (.busError .unmapped) := by decide

/-- V-DEC-13 to V-DEC-21. -/
theorem test_decode_refusals :
    [0xC00#12, 0xD08#12].map (fun d => decode ⟨d, 0#32⟩) = List.replicate 2 (.refuse .reservedSize) ∧
    [0x300#12, 0xF2C#12].map (fun d => decode ⟨d, 0#32⟩) = List.replicate 2 (.refuse .reservedClass) ∧
    [0x203#12, 0x2FF#12].map (fun d => decode ⟨d, 0#32⟩) = List.replicate 2 (.refuse .reservedEvent) ∧
    [0x600#12, 0xA00#12, 0xE02#12].map (fun d => decode ⟨d, 0#32⟩) = List.replicate 3 (.refuse .eventSize) := by decide

/-- A table word of 16 bits (log entry 4): the descriptor alone; bits 15:12 are zero. -/
theorem test_table_words :
    decodeTableWord 16 0x904 = some (.wrCrcData 0#32) ∧ decodeTableWord 16 0x202 = some .reset ∧
    decodeTableWord 48 0x01310904 = some (.wrCrcData 0x131#32) ∧ decodeTableWord 16 0x1904 = none ∧
    decodeTableWord 16 0x91C = none ∧ decodeTableWord 48 0x10200 = none := by decide

/-! ### The CRC function (spec/95 section 2.1) -/

/-- V-CRC-06 and V-CRC-07. -/
theorem test_crc_step : crcStep 0x0000#16 0x31#8 = 0x2672#16 ∧ crcStep 0x1234#16 0x00#8 = 0x0673#16 := by decide

/-- V-CRC-08, V-CRC-08b, V-CRC-08d. -/
theorem test_crc_step_corners :
    crcStep 0xFFFF#16 0xFF#8 = 0xFF00#16 ∧ crcStep 0x8000#16 0x12#8 = 0xA3FB#16 ∧
    crcStep 0x1021#16 0x10#8 = 0x2100#16 := by decide

/-- V-CRC-09, the check string "123456789". -/
theorem test_crc16_check_string :
    crc16 [0x31#8, 0x32#8, 0x33#8, 0x34#8, 0x35#8, 0x36#8, 0x37#8, 0x38#8, 0x39#8] = 0x31C3#16 := by decide +kernel

/-- V-CRC-13 and V-CRC-14: order matters. -/
theorem test_crc16_order : crc16 [0x41#8, 0x42#8] = 0x567B#16 ∧ crc16 [0x42#8, 0x41#8] = 0x334B#16 := by decide +kernel

/-- R39: the bit-serial form, on V-CRC-04's byte. -/
theorem test_crc_serial : (msbFirst 0x80#8).foldl crcBit 0x0000#16 = 0x9188#16 := by decide

/-! ### One operation at a time -/

/-- A block of zeros with threshold 7 (spec/95 section 2.3). -/
def blk : Block := ⟨0, 0, 0, 0, 0, false, 7#32, 0, false⟩

/-- A machine with that block and nothing else. -/
def st (b : Block) : State := ⟨b, [], []⟩

/-- The block an outcome leaves. -/
def blockOf : Host.Outcome State Fault Refusal → Option Block
  | .next t => some t.block
  | .fault _ => none
  | .refused _ => none

/-- What an outcome's last operation yielded. -/
def yieldOf : Host.Outcome State Fault Refusal → Option OpOutcome
  | .next t => t.outcomes.head?
  | .fault _ => none
  | .refused _ => none

/-- V-CRC-20 and V-CRC-22. -/
theorem test_wrCrcCtrl :
    blockOf (exec (.wrCrcCtrl 0x1#32) (st { blk with crc := 0x2672#16 })) = some blk ∧
    blockOf (exec (.wrCrcCtrl 0xFFFFFFFE#32) (st { blk with crc := 0x2672#16 })) = some { blk with crc := 0x2672#16 } := by
  decide

/-- V-CRC-24 and V-CRC-25. -/
theorem test_wrCrcData :
    blockOf (exec (.wrCrcData 0x131#32) (st blk)) = some { blk with crc := 0x2672#16 } ∧
    blockOf (exec (.wrCrcData 0xFFFFFF00#32) (st { blk with crc := 0x1234#16 })) = some { blk with crc := 0x0673#16 } := by
  decide

/-- V-CRC-26 to V-CRC-29. -/
theorem test_crc_reads_and_read_only_write :
    yieldOf (exec .rdCrcCtrl (st { blk with crc := 0x2672#16 })) = some (.ok (some 0#32)) ∧
    yieldOf (exec .rdCrcData (st { blk with crc := 0x2672#16 })) = some (.ok (some 0#32)) ∧
    yieldOf (exec .rdCrcValue (st { blk with crc := 0x31C3#16 })) = some (.ok (some 0x31C3#32)) ∧
    blockOf (exec (.wrCrcValue 0xFFFF#32) (st { blk with crc := 0x1021#16 })) = some { blk with crc := 0x1021#16 } := by
  decide

/-- V-PKV-24 and V-PKV-25. -/
theorem test_pktSeq :
    blockOf (exec (.wrPktSeq 0xABCDFE01#32) (st blk)) = some { blk with seq := 0x01#8, comp := 0xFE#8 } ∧
    yieldOf (exec .rdPktSeq (st { blk with seq := 0x01#8, comp := 0xFE#8 })) = some (.ok (some 0xFE01#32)) := by decide

/-- V-PKV-26 and V-PKV-27. -/
theorem test_pktRxcrc :
    blockOf (exec (.wrPktRxcrc 0x1234F8B0#32) (st blk)) = some { blk with rxcrc := 0xF8B0#16 } ∧
    yieldOf (exec .rdPktRxcrc (st { blk with rxcrc := 0xF8B0#16 })) = some (.ok (some 0xF8B0#32)) := by decide

/-- V-PKV-14 and V-PKV-15. -/
theorem test_rdPktStatus :
    yieldOf (exec .rdPktStatus (st { blk with seq := 0x01#8, comp := 0xFE#8, crc := 0xF8B0#16, rxcrc := 0xF8B0#16 }))
      = some (.ok (some 0x17#32)) ∧
    yieldOf (exec .rdPktStatus (st { blk with comp := 0xFF#8 })) = some (.ok (some 0x0F#32)) := by decide

/-- V-PKV-13, V-PKV-16, V-PKV-18, V-PKV-20: the other three values. -/
theorem test_pktStatus_values :
    readPktStatus blk = 0x02#32 ∧
    readPktStatus { blk with seq := 0x01#8, comp := 0xFE#8, crc := 0xC084#16, rxcrc := 0xC085#16 } = 0x01#32 ∧
    readPktStatus { blk with seq := 0x05#8, comp := 0x05#8, crc := 0x1234#16, rxcrc := 0x4321#16 } = 0x00#32 ∧
    readPktStatus { blk with comp := 0xFF#8, crc := 0x0001#16 } = 0x01#32 := by decide

/-- V-PKV-28. -/
theorem test_wrPktStatus : blockOf (exec (.wrPktStatus 0x1F#32) (st blk)) = some blk := by decide

/-- V-PKV-29 and V-PKV-31. -/
theorem test_pktFrame :
    blockOf (exec (.wrPktFrame 0xFFFFFF01#32) (st blk)) = some { blk with frame := 0x01#8 } ∧
    yieldOf (exec .rdPktFrame (st { blk with frame := 0x01#8 })) = some (.ok (some 0x00800101#32)) := by decide

/-- V-PKV-32, V-PKV-33, V-PKV-36, V-PKV-40. -/
theorem test_pktFrame_values :
    readPktFrame { blk with frame := 0x02#8 } = 0x04000202#32 ∧ readPktFrame { blk with frame := 0x04#8 } = 0x304#32 ∧
    readPktFrame { blk with frame := 0x18#8 } = 0x418#32 ∧ readPktFrame { blk with frame := 0x03#8 } = 0x003#32 := by decide

/-- V-TMO-02 and V-TMO-04. -/
theorem test_tick :
    blockOf (exec .tick (st { blk with en := true, count := 5#32 }))
      = some { blk with en := true, count := 6#32, tickf := true } ∧
    blockOf (exec .tick (st { blk with en := true, count := 0xFFFFFFFF#32, max := 0xFFFFFFFF#32 }))
      = some { blk with en := true, count := 0xFFFFFFFF#32, max := 0xFFFFFFFF#32, tickf := true } := by decide

/-- V-TMO-01 and V-TMO-05: with EN = 0 neither event leaves a trace. -/
theorem test_events_while_disabled :
    blockOf (exec .tick (st { blk with count := 5#32 })) = some { blk with count := 5#32 } ∧
    blockOf (exec .act (st { blk with count := 5#32 })) = some { blk with count := 5#32 } := by decide

/-- V-TMO-06. -/
theorem test_act :
    blockOf (exec .act (st { blk with en := true, count := 5#32, max := 3#32, tickf := true }))
      = some { blk with en := true, max := 3#32, tickf := true } := by decide

/-- V-TMO-07 and V-TMO-09. -/
theorem test_wrTmoCtrl :
    blockOf (exec (.wrTmoCtrl 0x2#32) (st { blk with en := true, count := 7#32 })) = some blk ∧
    blockOf (exec (.wrTmoCtrl 0xFFFFFFFD#32) (st { blk with count := 7#32 }))
      = some { blk with en := true, count := 7#32 } := by decide

/-- V-TMO-11, V-TMO-14, V-TMO-23. -/
theorem test_tmo_reads :
    yieldOf (exec .rdTmoCtrl (st { blk with en := true })) = some (.ok (some 1#32)) ∧
    yieldOf (exec .rdTmoMax (st { blk with max := 10#32 })) = some (.ok (some 10#32)) ∧
    yieldOf (exec .rdTmoCount (st { blk with en := true, count := 2#32 })) = some (.ok (some 2#32)) := by decide

/-- V-TMO-12 and V-TMO-15. -/
theorem test_wrTmoMax_and_wrTmoCount :
    blockOf (exec (.wrTmoMax 3#32) (st { blk with count := 4#32 })) = some { blk with count := 4#32, max := 3#32 } ∧
    blockOf (exec (.wrTmoCount 0#32) (st { blk with count := 2#32 })) = some { blk with count := 2#32 } := by decide

/-- V-TMO-19 and V-TMO-20. -/
theorem test_rdTmoStatus :
    yieldOf (exec .rdTmoStatus (st { blk with count := 1#32, max := 0#32, tickf := true })) = some (.ok (some 3#32)) ∧
    yieldOf (exec .rdTmoStatus (st { blk with count := 5#32, max := 5#32 })) = some (.ok (some 0#32)) := by decide

/-- V-TMO-16 and V-TMO-17. -/
theorem test_wrTmoStatus :
    blockOf (exec (.wrTmoStatus 0x1#32) (st { blk with tickf := true })) = some { blk with tickf := true } ∧
    blockOf (exec (.wrTmoStatus 0xFFFFFFFF#32) (st { blk with tickf := true })) = some blk := by decide

/-- V-RST-01, the threshold apart: it is the open parameter. -/
theorem test_reset (s : State) :
    exec .reset s = .next ⟨Block.reset, s.pending, .ok none :: s.outcomes⟩ := rfl

/-! ### One step -/

/-- Whether a step answers a next state. -/
def goesOn : Host.Outcome State Fault Refusal → Bool
  | .next _ => true
  | .fault _ => false
  | .refused _ => false

theorem test_first_step_after_reset : goesOn (step (State.reset.withFetchWord 16 0x92C)) = true := by decide

/-- P6 line 4: `wr.h @0x24` is ERR(1), MAX is not changed, and the next operation proceeds. -/
theorem test_step_bus_error :
    step ⟨blk, [⟨0x524#12, 0#32⟩, encode .tick], []⟩ = .next ⟨blk, [encode .tick], [.err .badSize]⟩ ∧
    State.faultMarks ⟨blk, [], [.err .badSize]⟩ = [.badSize] := ⟨rfl, rfl⟩

/-- V-DEC-17. -/
theorem test_step_refusal :
    step ⟨blk, [⟨0x203#12, 0#32⟩], []⟩ = .refused (.reservedDescriptor .reservedEvent) := rfl

/-! ### The assembler (R59, R60) and the packet (R58) -/

theorem test_assemble_text :
    Asm.assembleText "wr   PKT_SEQ, 0xFE01   ; -> SEQ_OK".toList = some [⟨0x90C#12, 0xFE01#32⟩] ∧
    Asm.assembleText "rd.b  @0x1D".toList = some [⟨0x01D#12, 0#32⟩] ∧
    Asm.assembleText "tmoarm 3".toList = some [⟨0x924#12, 3#32⟩, ⟨0x920#12, 3#32⟩] := by decide

theorem test_assemble_text_rejects :
    Asm.assembleText "wr TMO_MAX, 4294967296".toList = none ∧ Asm.assembleText "rd NO_SUCH".toList = none ∧
    Asm.assembleText "rd.w @256".toList = none ∧ Asm.assembleText "  ; only a comment".toList = some [] := by decide

theorem test_assemble_pseudo :
    Asm.assembleText "crcblk 0x31, 0xC3".toList = some [⟨0x904#12, 0x31#32⟩, ⟨0x904#12, 0xC3#32⟩] ∧
    Asm.assembleText "ldrx 0xF8, 0xB0".toList = some [⟨0x910#12, 0xF8B0#32⟩] ∧
    Asm.assembleText "tickack".toList = some [⟨0x92C#12, 2#32⟩] := by decide

/-- Log entry 7: a count of 0 is accepted and assembles to no operation. -/
theorem test_assemble_crcfill :
    Asm.assembleText "crcfill 0x1A, 2".toList = some [⟨0x904#12, 0x1A#32⟩, ⟨0x904#12, 0x1A#32⟩] ∧
    Asm.assembleText "crcfill 0x1A, 0".toList = some [] := by decide

/-- R38's example in R82: wire bytes 0xF8 then 0xB0. -/
theorem test_packet_checksum : Packet.checksum ⟨0x01#8, 0x01#8, 0xFE#8, [], 0xF8#8, 0xB0#8⟩ = 0xF8B0#16 := by decide

/-- R79: the five values of PKT_STATUS and the classes of PKT_FRAME, and where each sends the host. -/
theorem test_host_moves :
    receiveMove 0x17#32 = .writePayload ∧ receiveMove 0x0F#32 = .ackThenStart ∧ receiveMove 0x01#32 = .nak ∧
    frameMove 0x04000202#32 = some (.packet 1024) ∧ frameMove 0x304#32 = some .endSequence ∧
    frameMove 0x418#32 = some .cancelled ∧ frameMove 0x06#32 = none ∧
    discoverMove 0x06#8 = .erase ∧ discoverMove 0x43#8 = .listen := by decide

/-! ### Witnesses for the hypotheses of the statements -/

theorem witness_NoTickIsCounted : ∃ t, exec .reset (st blk) = .next t ∧
    ∀ r ∈ [encode .tick, encode (.wrTmoCtrl 0x2#32)], Request.enables r = false := ⟨_, rfl, by decide⟩

theorem witness_CrcValueEqualsTheFunction :
    Request.initialisesCrc (encode (.wrCrcCtrl 1#32)) = true ∧ Request.initialisesCrc (encode .reset) = true ∧
    ∀ r ∈ [encode (.wrCrcData 0x31#32), encode .tick, encode (.wrCrcCtrl 0#32), ⟨0x81C#12, 0#32⟩],
      Request.initialisesCrc r = false := by decide

theorem witness_WithoutInit : (st { blk with crc := 0x2672#16 }).block.crc = crc16 [0x31#8] ∧
    ∀ r ∈ [encode (.wrCrcData 0x31#32)], Request.initialisesCrc r = false := by decide

theorem witness_SingleBit : 127 < (List.replicate 128 (0x1A#8 : Byte)).length ∧ 7 < 8 ∧
    ((List.replicate 128 (0x1A#8 : Byte)).length = 128 ∨ (List.replicate 128 (0x1A#8 : Byte)).length = 1024) := by simp

theorem witness_Swapping : 0 < [0x41#8, 0x42#8].length ∧ 1 < [0x41#8, 0x42#8].length ∧ [0x41#8, 0x42#8].length ≤ 1024 := by
  decide

theorem witness_WritePktSeq : (0xFF00#32).toNat % 65536 = 0xFF00 ∧ (0x12340000#32 ||| 0x00FF#32).toNat % 65536 = 0x00FF ∧
    (0x0505#32).toNat % 256 = (0x0505#32).toNat / 256 % 256 := by decide

theorem witness_WritePktRxcrc : (st { blk with crc := 0xF8B0#16 }).block.crc = 0xF8#8 ++ 0xB0#8 ∧
    (0xB0F8#32).toNat % 65536 = 256 * (0xB0#8).toNat + (0xF8#8).toNat := by decide

theorem witness_HeaderAndData : valid blk = false ∧ valid { blk with comp := 0xFF#8 } = true := by decide

theorem witness_ReadPktFrame : (0x03#8 ≠ 0x01#8 ∧ 0x03#8 ≠ 0x02#8 ∧ 0x03#8 ≠ 0x04#8 ∧ 0x03#8 ≠ 0x18#8) := by decide

theorem witness_WriteTmoMax : (3#32).toNat < (st { blk with count := 4#32 }).block.count.toNat := by decide

theorem witness_Exceeded : { blk with max := 0xFFFFFFFF#32 }.max = 0xFFFFFFFF#32 ∧
    { blk with count := 5#32 }.count.toNat ≤ (5#32).toNat := by decide

/-- The parameter is read after a RESET and a run that touches the counter but not the threshold. -/
theorem witness_NoThresholdWritten : ∃ t, exec .reset (st blk) = .next t ∧
    ∀ r ∈ [encode (.wrTmoCtrl 0x3#32), encode .tick, encode .reset], ∀ w, decode r ≠ .op (.wrTmoMax w) := by
  refine ⟨_, rfl, ?_⟩
  simp only [List.forall_mem_cons, List.not_mem_nil, false_implies, implies_true, and_true]
  refine ⟨fun w h => ?_, fun w h => ?_, fun w h => ?_⟩
  · rw [show decode (encode (.wrTmoCtrl 0x3#32)) = .op (.wrTmoCtrl 0x3#32) by decide] at h
    cases h
  · rw [show decode (encode .tick) = .op .tick by decide] at h
    cases h
  · rw [show decode (encode .reset) = .op .reset by decide] at h
    cases h

theorem witness_TheThreshold : (1#32 : Word) ≠ 0xFFFFFFFF#32 ∧
    Asm.assemble (.tmoarm (1#32).toNat) = some [⟨0x924#12, 1#32⟩, ⟨0x920#12, 3#32⟩] ∧
    (∀ r ∈ [encode .tick, encode .rdTmoStatus, encode .tick], Request.rearms r = false) ∧
    countedTicks true [encode .tick] ≤ (1#32).toNat ∧
    countedTicks true [encode .tick, encode .rdTmoStatus, encode .tick] = (1#32).toNat + 1 := by decide

theorem witness_TickFlagSet : ∃ s', step ⟨{ blk with en := true }, [encode .tick], []⟩ = .next s' ∧
    s'.block.tickf ≠ false := ⟨_, rfl, by decide⟩

theorem witness_TickFlagCleared : ∃ s', step ⟨{ blk with tickf := true }, [encode (.wrTmoStatus 2#32)], []⟩ = .next s' ∧
    s'.block.tickf ≠ true := ⟨_, rfl, by decide⟩

theorem witness_TickFlagReset : ∃ s', step ⟨{ blk with tickf := true }, [encode .reset], []⟩ = .next s' ∧
    s'.block.tickf ≠ true := ⟨_, rfl, by decide⟩

theorem witness_CountUp : ∃ s', step ⟨{ blk with en := true }, [encode .tick], []⟩ = .next s' ∧
    s'.block.count ≠ 0#32 := ⟨_, rfl, by decide⟩

theorem witness_CountCleared : ∃ s', step ⟨{ blk with en := true, count := 5#32 }, [encode .act], []⟩ = .next s' ∧
    s'.block.count ≠ 5#32 := ⟨_, rfl, by decide⟩

theorem witness_CountClr : ∃ s', step ⟨{ blk with count := 5#32 }, [encode (.wrTmoCtrl 2#32)], []⟩ = .next s' ∧
    s'.block.count ≠ 5#32 := ⟨_, rfl, by decide⟩

theorem witness_CountReset : ∃ s', step ⟨{ blk with count := 5#32 }, [encode .reset], []⟩ = .next s' ∧
    s'.block.count ≠ 5#32 := ⟨_, rfl, by decide⟩

theorem witness_AffectsNot : Reg.tmoMax ∉ Instr.tick.affects ∧ Reg.crcValue ∉ (Instr.wrPktSeq 0#32).affects := by decide

theorem witness_Reserved : Reg.tmoCount ∈ [Reg.crcValue, .pktStatus, .tmoCount] ∧ Reg.crcData ∈ [Reg.crcCtrl, .crcData] := by
  decide

theorem witness_PacketRegister : Reg.pktFrame.isPacket = true := rfl

theorem witness_Idempotent : ∃ t u, (Instr.wrTmoCtrl 3#32).idempotent = true ∧
    exec (.wrTmoCtrl 3#32) (st blk) = .next t ∧ exec (.wrTmoCtrl 3#32) t = .next u := ⟨_, _, rfl, rfl, rfl⟩

theorem witness_FedTwice : ∃ t u, exec (.wrCrcData 0x31#32) (st blk) = .next t ∧ exec (.wrCrcData 0x31#32) t = .next u :=
  ⟨_, _, rfl, rfl⟩

theorem witness_CountedTick : ∃ t, (st { blk with en := true }).block.en = true ∧
    (st { blk with en := true }).block.count ≠ 0xFFFFFFFF#32 ∧ exec .tick (st { blk with en := true }) = .next t :=
  ⟨_, rfl, by decide, rfl⟩

theorem witness_WhileDisabled : (st blk).block.en = false ∧
    ∀ r ∈ [encode .tick, encode .act], Request.isEvent r = true := by decide

theorem witness_Enabled : (st { blk with en := true }).block.en = true := rfl

/-- One descriptor per clause of DecodeChecksTheFieldsInOrder, as SIZE, CLASS and SEL. -/
theorem witness_DecodeChecks :
    0x3FF / 256 % 4 = 3 ∧ (0x601 / 256 % 4 = 2 ∧ 0x601 / 1024 ≠ 0) ∧ (0x203 / 256 % 4 = 2 ∧ 0x203 / 1024 = 0) ∧
    (0xD08 / 256 % 4 < 2 ∧ 0xD08 / 1024 = 3) ∧ (0x524 / 256 % 4 < 2 ∧ 0x524 / 1024 < 2) ∧
    (0x9FF / 256 % 4 < 2 ∧ 0x9FF / 1024 = 2 ∧ 0x9FF % 256 % 4 ≠ 0) ∧
    (0x830 / 256 % 4 < 2 ∧ 0x830 / 1024 = 2 ∧ 0x830 % 256 % 4 = 0 ∧ ∀ g ∈ Reg.all, g.offset.toNat ≠ 0x830 % 256) ∧
    (0x82C / 1024 = 2 ∧ Reg.tmoStatus.offset.toNat = 0x82C % 256 ∧ 0x82C / 256 % 4 = 0) ∧
    (0x92C / 1024 = 2 ∧ Reg.tmoStatus.offset.toNat = 0x92C % 256 ∧ 0x92C / 256 % 4 = 1) := by decide

theorem witness_DecodeAndEncode : (Instr.wrTmoMax 7#32).wf = true ∧ Request.wf ⟨0x924#12, 7#32⟩ = true ∧
    decode ⟨0x924#12, 7#32⟩ = .op (.wrTmoMax 7#32) := by decide

theorem witness_AStep : (⟨blk, [encode .tick], []⟩ : State).pending = [encode .tick] ∧ decode (encode .tick) = .op .tick := by
  decide

/-- The first and the last access of each cause: BADSIZE, MISALIGNED, UNMAPPED. -/
theorem witness_ABusError : ∀ d ∈ [0x000#12, 0x5FF#12, 0x801#12, 0x9FF#12, 0x81C#12, 0x830#12, 0x9FC#12],
    (Request.cls ⟨d, 0#32⟩).toNat < 2 ∧ (Request.size ⟨d, 0#32⟩).toNat ≠ 3 ∧
    ∀ g ∈ Reg.all, ¬(Request.size ⟨d, 0#32⟩ = 2#2 ∧ Request.sel ⟨d, 0#32⟩ = g.offset) := by decide

theorem witness_ARefused :
    Request.cls ⟨0x300#12, 0#32⟩ = 3#2 ∧
    (Request.cls ⟨0x600#12, 0#32⟩ = 2#2 ∧ Request.size ⟨0x600#12, 0#32⟩ ≠ 0#2) ∧
    (Request.cls ⟨0x203#12, 0#32⟩ = 2#2 ∧ 3 ≤ (Request.sel ⟨0x203#12, 0#32⟩).toNat) ∧
    ((Request.cls ⟨0xD08#12, 0#32⟩).toNat < 2 ∧ Request.size ⟨0xD08#12, 0#32⟩ = 3#2) := by decide

theorem witness_Dutiful : (⟨blk, [encode .tick, ⟨0x81C#12, 0#32⟩], []⟩ : State).dutiful = true := by decide

/-- The first address past the window. -/
theorem witness_OutsideTheWindow :
    Config.blockBase + 256 < Config.blockBase ∨ Config.blockBase + 256 ≤ Config.blockBase + 256 := .inr (Nat.le_refl _)

theorem witness_AsmRejects : 2 ^ 32 ≤ 4294967296 ∧ 256 ≤ 256 := by decide

theorem witness_AsmRawSizes : (RawSize.half, 1) ∈ [(RawSize.byte, 0), (RawSize.half, 1), (RawSize.word, 2)] := by decide

theorem witness_APacket : Packet.sized ⟨0x01#8, 0#8, 0xFF#8, List.replicate 128 0x00#8, 0#8, 0#8⟩ = true := by decide +kernel

theorem witness_Receiving :
    let p : Packet := ⟨0x01#8, 0x01#8, 0xFE#8, [0x31#8], 0x26#8, 0x72#8⟩
    (encode .tick :: (receiveOps p).map encode ++ [encode .act]).filter (fun r => !r.isEvent) = (receiveOps p).map encode ∧
    p.isValid = true := by decide

/-- P2 in small, with one payload byte: the packet is valid and the host writes it to flash. -/
theorem test_receive_a_packet :
    let p : Packet := ⟨0x01#8, 0x01#8, 0xFE#8, [0x31#8], 0x26#8, 0x72#8⟩
    (runInstrs (st blk) (receiveOps p)).outcomes.head? = some (.ok (some 0x17#32)) := by decide

end Sys2Proof.Tests
end

/-! What one operation of a run does whatever else is pending, a step as an operation of a run, and the marks of a run. -/

namespace Sys2Proof.Machine

/-! ### One operation of a run -/

/-- Which outcomes answer what a request spells: OK an operation, and the mark with its reason a bus error and a
refused descriptor (R10). -/
inductive Answers : Decoded → OpOutcome → Prop where
  | ok (i : Instr) (rdata : Option Word) : Answers (.op i) (.ok rdata)
  | err (cause : BusErrorCause) : Answers (.busError cause) (.err cause)
  | refused (why : RefuseReason) : Answers (.refuse why) (.refused why)

/-- Performing a request may write the block and yields one outcome, which answers what the request spells. -/
theorem perform_shape (s : State) (r : Request) :
    ∃ b o, perform s r = { s with block := b }.yielding o ∧ Answers (decode r) o := by
  cases hd : decode r with
  | op i =>
    obtain ⟨b, v, he⟩ := exec_shape i s
    exact ⟨b, .ok v, perform_op hd he, .ok i v⟩
  | busError c => exact ⟨s.block, .err c, perform_busError hd, .err c⟩
  | refuse w => exact ⟨s.block, .refused w, perform_refuse hd, .refused w⟩

@[simp] theorem perform_pending (s : State) (r : Request) : (perform s r).pending = s.pending := by
  obtain ⟨b, o, h, -⟩ := perform_shape s r
  rw [h, State.yielding_pending]

/-- No operation looks at what is still to come. -/
theorem exec_withPending {i : Instr} {s t : State} (ps : List Request) (h : exec i s = .next t) :
    exec i { s with pending := ps } = .next { t with pending := ps } := by
  cases i <;> cases h <;> rfl

/-- What is still to come has no part in what a request does now. -/
theorem perform_withPending (s : State) (ps : List Request) (r : Request) :
    perform { s with pending := ps } r = { perform s r with pending := ps } := by
  cases hd : decode r with
  | op i =>
    obtain ⟨b, v, he⟩ := exec_shape i s
    rw [perform_op hd he, perform_op hd (exec_withPending ps he)]
  | busError c => rw [perform_busError hd, perform_busError hd]; rfl
  | refuse w => rw [perform_refuse hd, perform_refuse hd]; rfl

/-! ### Steps under the agents' duty (R118) -/

theorem presentable_iff {r : Request} : r.presentable = true ↔ ∀ w, decode r ≠ .refuse w := by
  cases hd : decode r <;> simp [Request.presentable, hd]

theorem dutiful_cons {s : State} {r : Request} {rest : List Request} (hp : s.pending = r :: rest) :
    s.dutiful = true ↔ r.presentable = true ∧ rest.all Request.presentable = true := by
  rw [State.dutiful, hp, List.all_cons, Bool.and_eq_true]

/-- The step on a request an agent may present is that operation of a run (R46). -/
theorem step_eq_perform {s : State} {r : Request} {rest : List Request} (hp : s.pending = r :: rest)
    (hr : r.presentable = true) : step s = .next (perform { s with pending := rest } r) := by
  rw [step_cons hp, operate]
  cases hd : decode r with
  | op i =>
    obtain ⟨b, v, he⟩ := exec_shape i { s with pending := rest }
    simp only [he, perform_op hd he, moveOn]
  | busError c =>
    rw [perform_busError hd]
    rfl
  | refuse w => exact absurd hd (presentable_iff.mp hr w)

/-- Settles O51: a step is an operation of the run, which never fails and leaves the rest pending. -/
theorem aDutifulMachineNeverStops : Obligations.ADutifulMachineNeverStops := by
  intro s hs
  cases hp : s.pending with
  | nil => exact ⟨s, step_nil hp, hs⟩
  | cons r rest =>
    obtain ⟨hr, hrest⟩ := (dutiful_cons hp).mp hs
    refine ⟨perform { s with pending := rest } r, step_eq_perform hp hr, ?_⟩
    rw [State.dutiful, perform_pending]
    exact hrest

theorem run_succ_of_next {M : Host.Core} {s s' : M.State} (h : M.step s = .next s') (k : Nat) :
    M.run (k + 1) s = M.run k s' := by
  rw [Host.Core.run, h]

/-- The steps on a dutiful list of pending requests are its run. -/
theorem core_run_pending (ps : List Request) (s : State) (hps : ps.all Request.presentable = true) :
    core.run ps.length { s with pending := ps } = .next (runOps { s with pending := [] } ps) := by
  induction ps generalizing s with
  | nil => rfl
  | cons r rest ih =>
    rw [List.all_cons, Bool.and_eq_true] at hps
    obtain ⟨hr, hrest⟩ := hps
    have hstep : step { s with pending := r :: rest } = .next { perform s r with pending := rest } := by
      rw [step_eq_perform rfl hr, ← perform_withPending]
    calc core.run (rest.length + 1) { s with pending := r :: rest }
      = core.run rest.length { perform s r with pending := rest } := run_succ_of_next hstep rest.length
    _ = .next (runOps { perform s r with pending := [] } rest) := ih (perform s r) hrest
    _ = .next (runOps { s with pending := [] } (r :: rest)) := by rw [runOps_cons, perform_withPending s [] r]

/-- Settles O53, by induction on the pending requests (`core_run_pending`). -/
theorem stepsAreTheRunOfThePendingOperations : Obligations.StepsAreTheRunOfThePendingOperations :=
  fun s hs => core_run_pending s.pending s hs

/-! ### The marks of a run (R10) -/

/-- The marks taken from the outcomes, one where `adds` holds of a request and none elsewhere, are after a run those
before it with as many new ones in front as requests for which `adds` holds. -/
theorem runOps_adds_marks {α : Type} (mark : OpOutcome → Option α) (adds : Request → Bool)
    (hadds : ∀ r o, Answers (decode r) o → (mark o).toList.length = (adds r).toNat) (s : State) (rs : List Request) :
    ∃ new, (runOps s rs).outcomes.filterMap mark = new ++ s.outcomes.filterMap mark ∧ new.length = rs.countP adds := by
  induction rs generalizing s with
  | nil => exact ⟨[], rfl, rfl⟩
  | cons r rs ih =>
    obtain ⟨b, o, hperform, ho⟩ := perform_shape s r
    obtain ⟨later, hlater, hcount⟩ := ih (perform s r)
    have hfirst : (perform s r).outcomes.filterMap mark = (mark o).toList ++ s.outcomes.filterMap mark := by
      rw [hperform, State.yielding_outcomes, List.filterMap_cons]
      cases mark o <;> rfl
    refine ⟨later ++ (mark o).toList, ?_, ?_⟩
    · rw [runOps_cons, hlater, hfirst, List.append_assoc]
    · rw [List.length_append, hcount, hadds r o ho, List.countP_cons]
      cases adds r <;> rfl

/-- Settles O50: the outcomes and both kinds of marks grow by what answers each request (`runOps_adds_marks`). -/
theorem marksAreKeptForEveryErrorAndNeverCleared : Obligations.MarksAreKeptForEveryErrorAndNeverCleared := by
  intro s rs
  refine ⟨?_, runOps_adds_marks OpOutcome.faultMark _ (fun r o ho => ?_) s rs,
    runOps_adds_marks OpOutcome.refusalMark _ (fun r o ho => ?_) s rs⟩
  · simpa using runOps_adds_marks some (fun _ => true) (fun _ _ _ => rfl) s rs
  · generalize decode r = d at ho ⊢
    cases ho <;> rfl
  · generalize decode r = d at ho ⊢
    cases ho <;> rfl

/-! ### The window in the system map (R34) -/

theorem windowOffset_inside (off : Byte) : windowOffset (Config.blockBase + off.toNat) = some off := by
  have hlt : off.toNat < 256 := off.isLt
  rw [windowOffset, if_pos (by omega), Nat.add_sub_cancel_left, BitVec.ofNat_toNat, BitVec.setWidth_eq]

theorem windowOffset_outside {addr : Nat} (h : addr < Config.blockBase ∨ Config.blockBase + 256 ≤ addr) :
    windowOffset addr = none := by
  rw [windowOffset, if_neg (by omega)]

/-- Settles O54, from the window offset inside and outside the window. -/
theorem theWindowIsReachedAtBlockBase : Obligations.TheWindowIsReachedAtBlockBase := by
  refine ⟨Nat.mul_mod_right 256 _, fun off => ?_, fun off w => ?_, fun addr bytes h => ⟨?_, fun w => ?_⟩⟩
  · rw [memReadRequest, windowOffset_inside]
    rfl
  · rw [memWriteRequest, windowOffset_inside]
    rfl
  · rw [memReadRequest, windowOffset_outside h]
    rfl
  · rw [memWriteRequest, windowOffset_outside h]
    rfl

end Sys2Proof.Machine

/-! What RESET leaves (R33), which registers show each stored element (R32), and what an operation does to the tick flag. -/

namespace Sys2Proof.Machine

/-- Settles O1: the values are those `Block.reset` writes out. -/
theorem resetStateHoldsTheSpecsValues : Obligations.ResetStateHoldsTheSpecsValues := rfl

/-! ### Which registers show which stored elements (R32) -/

section

variable {g : Reg} (b : Block)

theorem readReg_withCrc (c : Half) (hg : g ∉ [Reg.crcValue, .pktStatus]) :
    readReg g { b with crc := c } = readReg g b := by
  cases g <;> simp at hg <;> rfl

theorem readReg_withSeqComp (q c : Byte) (hg : g ∉ [Reg.pktSeq, .pktStatus]) :
    readReg g { b with seq := q, comp := c } = readReg g b := by
  cases g <;> simp at hg <;> rfl

theorem readReg_withRxcrc (c : Half) (hg : g ∉ [Reg.pktRxcrc, .pktStatus]) :
    readReg g { b with rxcrc := c } = readReg g b := by
  cases g <;> simp at hg <;> rfl

theorem readReg_withFrame (f : Byte) (hg : g ∉ [Reg.pktFrame]) :
    readReg g { b with frame := f } = readReg g b := by
  cases g <;> simp at hg <;> rfl

theorem readReg_withEnCount (e : Bool) (c : Word) (hg : g ∉ [Reg.tmoCtrl, .tmoCount, .tmoStatus]) :
    readReg g { b with en := e, count := c } = readReg g b := by
  cases g <;> simp at hg <;> rfl

theorem readReg_withMax (m : Word) (hg : g ∉ [Reg.tmoMax, .tmoStatus]) :
    readReg g { b with max := m } = readReg g b := by
  cases g <;> simp at hg <;> rfl

theorem readReg_withCountTickf (c : Word) (f : Bool) (hg : g ∉ [Reg.tmoCount, .tmoStatus]) :
    readReg g { b with count := c, tickf := f } = readReg g b := by
  cases g <;> simp at hg <;> rfl

theorem readReg_withTickf (f : Bool) (hg : g ∉ [Reg.tmoStatus]) :
    readReg g { b with tickf := f } = readReg g b := by
  cases g <;> simp at hg <;> rfl

end

/-- A write under a condition leaves what the write itself leaves. -/
theorem ite_block_leaves {α : Type} (f : Block → α) {p : Prop} [Decidable p] {b b' : Block} (h : f b' = f b) :
    f (if p then b' else b) = f b := by
  rw [apply_ite f, h, ite_self]

/-- The frame of every operation: a register it is not said to affect reads as before (R32). -/
theorem exec_readReg {i : Instr} {g : Reg} {s t : State} (h : exec i s = .next t) (hg : g ∉ i.affects) :
    readReg g t.block = readReg g s.block := by
  cases i with cases h
  | wrCrcCtrl w => exact ite_block_leaves (readReg g) (readReg_withCrc s.block crcInit hg)
  | wrCrcData w => exact readReg_withCrc s.block _ hg
  | wrPktSeq w => exact readReg_withSeqComp s.block _ _ hg
  | wrPktRxcrc w => exact readReg_withRxcrc s.block _ hg
  | wrPktFrame w => exact readReg_withFrame s.block _ hg
  | wrTmoCtrl w => exact readReg_withEnCount s.block _ _ hg
  | wrTmoMax w => exact readReg_withMax s.block w hg
  | wrTmoStatus w => exact ite_block_leaves (readReg g) (readReg_withTickf s.block false hg)
  | tick => exact ite_block_leaves (readReg g) (readReg_withCountTickf s.block _ true hg)
  | act => exact ite_block_leaves (readReg g) (readReg_withCountTickf s.block 0#32 s.block.tickf hg)
  | reset => exact absurd g.mem_all hg
  | _ => rfl

/-- Settles O35: completion is `exec_shape`, the frame `exec_readReg`. -/
theorem anOperationLeavesEveryOtherRegisterAsItReads : Obligations.AnOperationLeavesEveryOtherRegisterAsItReads := by
  intro i s
  obtain ⟨b, v, he⟩ := exec_shape i s
  exact ⟨_, he, rfl, fun g hg => exec_readReg he hg⟩

/-! ### The tick flag -/

/-- Bit 1 of an operand as its number shows it (R101). -/
theorem tickfClearField_iff {w : Word} : tickfClearField w = true ↔ w.toNat / 2 % 2 = 1 := by
  rw [tickfClearField, ← BitVec.testBit_toNat, Nat.testBit_eq_decide_div_mod_eq, decide_eq_true_iff, Nat.pow_one]

/-- What an operation can do to `TICKF`: keep it, set it by a TICK with `EN` = 1, or clear it by RESET or by a write of
TMO_STATUS with the clear bit (R92, R101, R115). -/
theorem exec_tickf {i : Instr} {s t : State} (h : exec i s = .next t) :
    t.block.tickf = s.block.tickf ∨
    (t.block.tickf = true ∧ i = .tick ∧ s.block.en = true) ∨
    (t.block.tickf = false ∧ (i = .reset ∨ ∃ w, i = .wrTmoStatus w ∧ tickfClearField w = true)) := by
  cases i with cases h
  | tick =>
    by_cases hen : s.block.en = true
    · exact .inr (.inl ⟨congrArg Block.tickf (if_pos hen), rfl, hen⟩)
    · exact .inl (congrArg Block.tickf (if_neg hen))
  | wrTmoStatus w =>
    by_cases hw : tickfClearField w = true
    · exact .inr (.inr ⟨congrArg Block.tickf (if_pos hw), .inr ⟨w, rfl, hw⟩⟩)
    · exact .inl (congrArg Block.tickf (if_neg hw))
  | reset => exact .inr (.inr ⟨rfl, .inl rfl⟩)
  | wrCrcCtrl w => exact .inl (ite_block_leaves Block.tickf rfl)
  | act => exact .inl (ite_block_leaves Block.tickf rfl)
  | _ => exact .inl rfl

/-- Settles O33: a step that takes an operation does to `TICKF` what `exec_tickf` allows; the others keep the block. -/
theorem onlyTheseOperationsChangeTheTickFlag : Obligations.OnlyTheseOperationsChangeTheTickFlag := by
  intro s s' h hne
  obtain ⟨-, rfl⟩ | ⟨r, rest, i, hp, hd, he⟩ | ⟨r, rest, c, -, -, rfl⟩ := step_cases h
  · exact absurd rfl hne
  · refine ⟨r, rest, hp, ?_⟩
    obtain hkept | ⟨hset, rfl, hen⟩ | ⟨hcleared, rfl | ⟨w, rfl, hw⟩⟩ := exec_tickf he
    · exact absurd hkept hne
    · exact .inl ⟨hset, hd, hen⟩
    · exact .inr ⟨hcleared, .inl hd⟩
    · exact .inr ⟨hcleared, .inr ⟨w, hd, tickfClearField_iff.mp hw⟩⟩
  · exact absurd rfl hne

end Sys2Proof.Machine

/-! One step as the operation it decodes to, and the two orders of a TICK and an ACTIVITY (R46, R47). -/

namespace Sys2Proof.Machine

/-- Settles O47: an operation always ends in a next state (`exec_shape`), which `moveOn` passes on. -/
theorem aStepRunsTheDecodedOperation : Obligations.AStepRunsTheDecodedOperation := by
  intro s r rest i hp hd
  obtain ⟨b, v, he⟩ := exec_shape i { s with pending := rest }
  simp only [step_cons hp, operate, hd, he, moveOn]

/-- Two steps over two pending operations run the one and then the other. -/
theorem core_run_two {s t u : State} {i j : Instr} (hi : decode (encode i) = .op i) (hj : decode (encode j) = .op j)
    (h : exec i { s with pending := [] } = .next t) (h' : exec j t = .next u) :
    core.run 2 { s with pending := [encode i, encode j] } = .next u := by
  have hdutiful : [encode i, encode j].all Request.presentable = true := by
    simp [Request.presentable, hi, hj]
  have hrun : runOps { s with pending := [] } [encode i, encode j] = u := by
    rw [runOps_cons, perform_op hi h, runOps_cons, perform_op hj h', runOps_nil]
  exact hrun ▸ core_run_pending [encode i, encode j] s hdutiful

theorem exec_tick_of_en {s : State} (h : s.block.en = true) :
    exec .tick s = commit { s.block with count := countUp s.block.count, tickf := true } s :=
  congrArg (commit · s) (if_pos h)

theorem exec_act_of_en {s : State} (h : s.block.en = true) : exec .act s = commit { s.block with count := 0#32 } s :=
  congrArg (commit · s) (if_pos h)

/-- Settles O41: each order is two steps (`core_run_two`), and both events take effect since `EN` stays 1. -/
theorem aTickAndAnActivityAreAdmittedInEitherOrder : Obligations.ATickAndAnActivityAreAdmittedInEitherOrder := by
  have htick : decode (encode .tick) = .op .tick := by decide
  have hact : decode (encode .act) = .op .act := by decide
  intro s hen
  exact ⟨⟨_, core_run_two htick hact (exec_tick_of_en hen) (exec_act_of_en hen), rfl, rfl⟩,
    ⟨_, core_run_two hact htick (exec_act_of_en hen) (exec_tick_of_en hen), rfl, rfl⟩⟩

end Sys2Proof.Machine

/-! The CRC as a division fed one bit at a time (R39, R61). -/

namespace Sys2Proof.Machine

/-- The register's top bit and the incoming bit decide the feedback together, so a bit may enter either before the
shift or beside it. -/
theorem crcShift_xor_eq_crcBit (c x : Half) : crcShift (c ^^^ x) = crcBit c (x.getMsbD 0) ^^^ (x <<< 1) := by
  have hx : x.getMsbD 0 = x.getLsbD 15 := by simp [BitVec.getMsbD_eq_getLsbD]
  have hxor : (c.getLsbD 15 ^^ x.getLsbD 15) = (c.getLsbD 15 != x.getLsbD 15) := rfl
  rw [hx, crcShift, crcBit, BitVec.getLsbD_xor, BitVec.shiftLeft_xor_distrib, hxor]
  split
  · rw [BitVec.xor_assoc, BitVec.xor_comm (x <<< 1), ← BitVec.xor_assoc]
  · rfl

/-- `n` shifts of the register with `x` added in feed the `n` top bits of `x` one at a time, the highest first; the rest
of `x` is left, shifted. -/
theorem crcShifts_xor_eq_foldl_crcBit (n : Nat) (c x : Half) :
    crcShifts n (c ^^^ x) = ((List.range n).map x.getMsbD).foldl crcBit c ^^^ (x <<< n) := by
  induction n generalizing c x with
  | zero => simp
  | succ n ih =>
    have hbits : (List.range n).map (x <<< 1).getMsbD = (List.range n).map (x.getMsbD ∘ Nat.succ) :=
      List.map_congr_left fun k _ => BitVec.getMsbD_shiftLeft x 1
    rw [crcShifts_succ, crcShift_xor_eq_crcBit, ih, hbits, List.range_succ_eq_map, List.map_cons, List.foldl_cons,
      List.map_map, ← BitVec.shiftLeft_add, Nat.add_comm 1 n]

/-- One byte is its eight bits, bit 7 first (R39). -/
theorem crcStep_eq_foldl_crcBit (c : Half) (b : Byte) :
    crcStep c b = ((List.range 8).map fun k => b.getLsbD (7 - k)).foldl crcBit c := by
  have hbits : (List.range 8).map (b.setWidth 16 <<< 8).getMsbD = (List.range 8).map fun k => b.getLsbD (7 - k) :=
    List.map_congr_left fun k hk => by
      have hk : k < 8 := List.mem_range.mp hk
      have htop : k + 8 + 8 - 16 = k := by omega
      rw [BitVec.getMsbD_shiftLeft, BitVec.getMsbD_setWidth, htop, BitVec.getMsbD_eq_getLsbD]
      simp [hk]
  have hrest : b.setWidth 16 <<< 8 <<< 8 = 0#16 := by
    rw [← BitVec.shiftLeft_add, BitVec.shiftLeft_eq_zero (by decide)]
  rw [crcStep, crcShifts_xor_eq_foldl_crcBit, hbits, hrest, BitVec.xor_zero]

theorem crcFold_eq_foldl_crcBit (c : Half) (bs : List Byte) :
    crcFold c bs = (bs.flatMap fun b => (List.range 8).map fun k => b.getLsbD (7 - k)).foldl crcBit c := by
  induction bs generalizing c with
  | nil => rfl
  | cons b bs ih => rw [crcFold_cons, List.flatMap_cons, List.foldl_append, ← crcStep_eq_foldl_crcBit, ih]

@[simp] theorem dataField_setWidth (b : Byte) : dataField (b.setWidth 32) = b := by
  simp [dataField, BitVec.extractLsb'_setWidth_of_le]

theorem perform_encode_wrCrcData (s : State) (w : Word) :
    perform s (encode (.wrCrcData w)) =
      { s with block := { s.block with crc := crcStep s.block.crc (dataField w) } }.yielding (.ok none) :=
  perform_op (decode_wordWrite .crcData w) rfl

theorem runInstrs_cons (s : State) (i : Instr) (is : List Instr) :
    runInstrs s (i :: is) = runInstrs (perform s (encode i)) is := rfl

/-- Writes of CRC_DATA leave the fold over their bytes, in the order of the writes (R62, R69). -/
theorem runInstrs_wrCrcData_crc (s : State) (bs : List Byte) :
    (runInstrs s (bs.map fun b => .wrCrcData (b.setWidth 32))).block.crc = crcFold s.block.crc bs := by
  induction bs generalizing s with
  | nil => rfl
  | cons b bs ih =>
    rw [List.map_cons, runInstrs_cons, ih, perform_encode_wrCrcData, State.yielding_block, dataField_setWidth,
      crcFold_cons]

/-- Settles O9: the writes fold `crcStep` over the bytes, and each byte is its eight bits fed by `crcBit`. -/
theorem crcConsumesEachByteMostSignificantBitFirst : Obligations.CrcConsumesEachByteMostSignificantBitFirst :=
  fun s bs => (runInstrs_wrCrcData_crc s bs).trans (crcFold_eq_foldl_crcBit s.block.crc bs)

end Sys2Proof.Machine

/-! Which bits of a register can be read and which bits of an operand are taken (R42, R43), and which operations may be
repeated (R45). -/

namespace Sys2Proof.Machine

/-- A bus read answers the register's word and changes nothing else (R45). -/
theorem exec_readOf (g : Reg) (s : State) : exec (readOf g) s = returnRead (readReg g s.block) s := by
  cases g <;> rfl

theorem exec_idempotent {i : Instr} {s t u : State} (hi : i.idempotent = true) (h : exec i s = .next t)
    (h' : exec i t = .next u) : u.block = t.block := by
  cases i with (cases h; cases h')
  | wrCrcData w => cases hi
  | tick => cases hi
  | wrCrcCtrl w => cases initField w <;> rfl
  | wrTmoCtrl w => cases clrField w <;> rfl
  | wrTmoStatus w => cases tickfClearField w <;> rfl
  | act => cases hen : s.block.en <;> simp [State.yielding, hen]
  | _ => rfl

theorem countUp_toNat {c : Word} (h : c ≠ 0xFFFFFFFF#32) : (countUp c).toNat = c.toNat + 1 := by
  have hlt : c.toNat + 1 < 2 ^ 32 := by
    have hne : c.toNat ≠ 2 ^ 32 - 1 := fun hc => h (BitVec.eq_of_toNat_eq hc)
    have := c.isLt
    omega
  rw [countUp, if_neg h, BitVec.toNat_add_of_lt hlt]
  rfl

/-- A byte that changes the CRC when it is fed changes it again when it is fed twice. -/
theorem crcStep_twice_ne {c : Half} {b : Byte} (h : crcStep c b ≠ c) : crcStep (crcStep c b) b ≠ crcStep c b :=
  (crcStep_injective_left b).ne h

/-- Settles O36: the reads by `exec_readOf`, the listed operations by `exec_idempotent`. Feeding 0x01 twice to
`CRC` = 0x0000 leaves another value than feeding it once. -/
theorem readsHaveNoSideEffectAndTheListedOperationsAreIdempotent :
    Obligations.ReadsHaveNoSideEffectAndTheListedOperationsAreIdempotent := by
  have hfed : crcStep State.reset.block.crc (dataField 0x01#32) ≠ State.reset.block.crc := by decide
  refine ⟨exec_readOf, fun i s t u => exec_idempotent, fun w s t u h h' => ?_,
    ⟨0x01#32, State.reset, _, _, rfl, rfl, fun h => crcStep_twice_ne hfed (congrArg Block.crc h)⟩,
    fun s t hen hcount h => ?_⟩
  · cases h
    cases h'
    rfl
  · cases (exec_tick_of_en hen).symm.trans h
    exact countUp_toNat hcount

theorem setWidth_and_not_low {k : Nat} (x : BitVec k) :
    x.setWidth 32 &&& ~~~((BitVec.allOnes k).setWidth 32) = 0#32 := by
  refine BitVec.eq_of_getLsbD_eq fun i hi => ?_
  by_cases hk : i < k
  · simp [hk]
  · simp [BitVec.getLsbD_of_ge x i (by omega)]

/-- The reserved bits of PKT_FRAME, 31:27 and 15:12, are 0 whatever its three fields hold (R26). -/
theorem pktFrame_word_and_reserved (plen : BitVec 11) (kind : BitVec 4) (frame : Byte) :
    (0#5 ++ plen ++ 0#4 ++ kind ++ frame) &&& (0x1F#5 ++ 0#11 ++ 0xF#4 ++ 0#4 ++ 0#8) = 0#(5 + 11 + 4 + 4 + 8) := by
  simp only [BitVec.and_append, BitVec.zero_and, BitVec.and_zero]
  rfl

theorem readReg_and_not_readable (g : Reg) (b : Block) : readReg g b &&& ~~~g.readableBits = 0#32 := by
  cases g with
  | crcCtrl => exact BitVec.zero_and
  | crcData => exact BitVec.zero_and
  | crcValue => exact setWidth_and_not_low b.crc
  | pktSeq => exact setWidth_and_not_low (b.comp ++ b.seq)
  | pktRxcrc => exact setWidth_and_not_low b.rxcrc
  | pktStatus => exact setWidth_and_not_low (k := 5) _
  | pktFrame => exact pktFrame_word_and_reserved _ _ _
  | tmoCtrl => exact setWidth_and_not_low (k := 1) _
  | tmoMax => exact BitVec.and_zero
  | tmoCount => exact BitVec.and_zero
  | tmoStatus => exact setWidth_and_not_low (k := 2) _

/-- A field whose bits are all in a mask is the same in the masked operand. -/
theorem extractLsb'_and_mask {start len : Nat} {w m : Word} (hm : m.extractLsb' start len = BitVec.allOnes len) :
    (w &&& m).extractLsb' start len = w.extractLsb' start len := by
  rw [BitVec.extractLsb'_and, hm, BitVec.and_allOnes]

theorem getLsbD_and_mask {i : Nat} {w m : Word} (hm : m.getLsbD i = true) : (w &&& m).getLsbD i = w.getLsbD i := by
  rw [BitVec.getLsbD_and, hm, Bool.and_true]

/-- The bits of an operand that no field of the register takes have no part in its write (R42, R43, R53). -/
theorem exec_writeOf_writable (g : Reg) (w : Word) (s : State) :
    exec (writeOf g (w &&& g.writableBits)) s = exec (writeOf g w) s := by
  cases g with
  | crcCtrl =>
    have hinit : initField (w &&& Reg.crcCtrl.writableBits) = initField w := getLsbD_and_mask rfl
    simp only [writeOf, exec, execWrCrcCtrl, hinit]
  | crcData =>
    have hdata : dataField (w &&& Reg.crcData.writableBits) = dataField w := extractLsb'_and_mask rfl
    simp only [writeOf, exec, execWrCrcData, hdata]
  | pktSeq =>
    have hseq : seqField (w &&& Reg.pktSeq.writableBits) = seqField w := extractLsb'_and_mask rfl
    have hcomp : compField (w &&& Reg.pktSeq.writableBits) = compField w := extractLsb'_and_mask rfl
    simp only [writeOf, exec, execWrPktSeq, hseq, hcomp]
  | pktRxcrc =>
    have hrxcrc : rxcrcField (w &&& Reg.pktRxcrc.writableBits) = rxcrcField w := extractLsb'_and_mask rfl
    simp only [writeOf, exec, execWrPktRxcrc, hrxcrc]
  | pktFrame =>
    have hframe : frameField (w &&& Reg.pktFrame.writableBits) = frameField w := extractLsb'_and_mask rfl
    simp only [writeOf, exec, execWrPktFrame, hframe]
  | tmoCtrl =>
    have hen : enField (w &&& Reg.tmoCtrl.writableBits) = enField w := getLsbD_and_mask rfl
    have hclr : clrField (w &&& Reg.tmoCtrl.writableBits) = clrField w := getLsbD_and_mask rfl
    simp only [writeOf, exec, execWrTmoCtrl, hen, hclr]
  | tmoMax => rw [show w &&& Reg.tmoMax.writableBits = w from BitVec.and_allOnes]
  | tmoStatus =>
    have hclear : tickfClearField (w &&& Reg.tmoStatus.writableBits) = tickfClearField w := getLsbD_and_mask rfl
    simp only [writeOf, exec, execWrTmoStatus, hclear]
  | crcValue => rfl
  | pktStatus => rfl
  | tmoCount => rfl

/-- Settles O37, from what each register's word and each write's fields are made of. -/
theorem reservedBitsReadZeroAndAreIgnoredOnWrite : Obligations.ReservedBitsReadZeroAndAreIgnoredOnWrite := by
  refine ⟨readReg_and_not_readable, fun g w s => ⟨?_, fun hg => ?_, fun hg => ?_⟩⟩
  · obtain ⟨b, v, he⟩ := exec_shape (writeOf g w) s
    exact ⟨_, he, (exec_writeOf_writable g w s).trans he⟩
  · cases g <;> simp at hg <;> rfl
  · cases g <;> simp at hg <;> rfl

end Sys2Proof.Machine

/-! The packet registers, `EN` and `MAX` in a run with and without its events (R49, R63, R121). -/

namespace Sys2Proof.Machine

/-- A block without what an event can change: `COUNT` and `TICKF` at fixed values (R92, R93). -/
def Block.eventless (b : Block) : Block := { b with count := 0#32, tickf := false }

@[simp] theorem Block.eventless_en (b : Block) : b.eventless.en = b.en := rfl
@[simp] theorem Block.eventless_max (b : Block) : b.eventless.max = b.max := rfl

theorem readReg_eventless {g : Reg} (hg : g.isPacket = true) (b : Block) : readReg g b.eventless = readReg g b := by
  cases g <;> simp [Reg.isPacket] at hg <;> rfl

theorem exec_event_eventless {i : Instr} {s t : State} (hi : i.isEvent = true) (h : exec i s = .next t) :
    t.block.eventless = s.block.eventless := by
  cases i with cases h
  | tick => exact ite_block_leaves Block.eventless rfl
  | act => exact ite_block_leaves Block.eventless rfl
  | _ => cases hi

/-- What an operation leaves of the block but for `COUNT` and `TICKF` comes from as much of the block before it. -/
theorem exec_eventless {i : Instr} {s t t' : State} (h : exec i s = .next t)
    (h' : exec i { s with block := s.block.eventless } = .next t') : t.block.eventless = t'.block.eventless := by
  cases i with
  | tick => exact (exec_event_eventless rfl h).trans (exec_event_eventless rfl h').symm
  | act => exact (exec_event_eventless rfl h).trans (exec_event_eventless rfl h').symm
  | wrCrcCtrl w => cases h; cases h'; cases initField w <;> rfl
  | wrTmoStatus w => cases h; cases h'; cases tickfClearField w <;> rfl
  | _ => cases h; cases h'; rfl

/-- A request of a run makes no difference between blocks that agree but for `COUNT` and `TICKF`. -/
theorem perform_eventless {s s' : State} (r : Request) (hb : s.block.eventless = s'.block.eventless) :
    (perform s r).block.eventless = (perform s' r).block.eventless := by
  cases hd : decode r with
  | op i =>
    obtain ⟨b, v, he⟩ := exec_shape i s
    obtain ⟨b', v', he'⟩ := exec_shape i s'
    obtain ⟨c, u, hc⟩ := exec_shape i { s with block := s.block.eventless }
    obtain ⟨c', u', hc'⟩ := exec_shape i { s' with block := s'.block.eventless }
    rw [perform_op hd he, perform_op hd he', exec_eventless he hc, exec_eventless he' hc', exec_block_congr hb hc hc']
  | busError c => rwa [perform_busError hd, perform_busError hd]
  | refuse w => rwa [perform_refuse hd, perform_refuse hd]

theorem perform_event_eventless {s : State} {r : Request} (hr : r.isEvent = true) :
    (perform s r).block.eventless = s.block.eventless := by
  cases hd : decode r with
  | op i =>
    obtain ⟨b, v, he⟩ := exec_shape i s
    rw [Request.isEvent, Request.onOperation_op hd] at hr
    rw [perform_op hd he, exec_event_eventless hr he]
  | busError c => rw [perform_busError hd, State.yielding_block]
  | refuse w => rw [perform_refuse hd, State.yielding_block]

/-- Two runs that differ only in events leave the same block but for `COUNT` and `TICKF`. -/
theorem runOps_filter_events_eventless {s s' : State} (rs : List Request)
    (hb : s.block.eventless = s'.block.eventless) :
    (runOps s rs).block.eventless = (runOps s' (rs.filter fun r => !r.isEvent)).block.eventless := by
  induction rs generalizing s s' with
  | nil => exact hb
  | cons r rs ih =>
    cases hr : r.isEvent with
    | true =>
      rw [List.filter_cons_of_neg (by simp [hr]), runOps_cons]
      exact ih ((perform_event_eventless hr).trans hb)
    | false =>
      rw [List.filter_cons_of_pos (by simp [hr]), runOps_cons, runOps_cons]
      exact ih (perform_eventless r hb)

/-- Settles O38: the two runs agree but for `COUNT` and `TICKF`, which no packet register shows. -/
theorem eventsNeverTouchThePacketRegisters : Obligations.EventsNeverTouchThePacketRegisters := by
  intro s rs t u
  have htu : t.eventless = u.eventless := runOps_filter_events_eventless rs rfl
  refine ⟨fun g hg => ?_, ?_, ?_⟩
  · rw [← readReg_eventless hg t, htu, readReg_eventless hg]
  · rw [← Block.eventless_en t, htu, Block.eventless_en]
  · rw [← Block.eventless_max t, htu, Block.eventless_max]

end Sys2Proof.Machine

/-! The decoder by the descriptor's fields, an equation per check, and the operations it can answer (R51, R52, R54). -/

namespace Sys2Proof

/-! ### A descriptor is its three fields (R51) -/

section

variable (size cls : BitVec 2) (sel : Byte) (w : Word)

@[simp] theorem Request.size_mk : Request.size ⟨size ++ cls ++ sel, w⟩ = size :=
  (BitVec.extractLsb'_append_eq_of_le (by decide)).trans BitVec.extractLsb'_append_eq_left

@[simp] theorem Request.cls_mk : Request.cls ⟨size ++ cls ++ sel, w⟩ = cls :=
  (BitVec.extractLsb'_append_eq_of_le (by decide)).trans BitVec.extractLsb'_append_eq_right

@[simp] theorem Request.sel_mk : Request.sel ⟨size ++ cls ++ sel, w⟩ = sel :=
  BitVec.extractLsb'_append_eq_right

end

theorem Request.desc_eq_fields (r : Request) : r.desc = r.size ++ r.cls ++ r.sel := by
  have hhigh : r.size ++ r.cls = r.desc.extractLsb' 8 4 := BitVec.extractLsb'_append_extractLsb'_eq_extractLsb' rfl
  rw [hhigh]
  exact (BitVec.extractLsb'_append_extractLsb' (w := 4) (len := 8)).symm

/-- A request is its three fields and its operand. -/
theorem Request.eq_mk_fields (r : Request) : r = ⟨r.size ++ r.cls ++ r.sel, r.wdata⟩ := by
  rw [← r.desc_eq_fields]

theorem Request.wf_iff {r : Request} : r.wf = true ↔ r.cls = 0b01#2 ∨ r.wdata = 0#32 := by
  simp [Request.wf, Request.cls]

/-- The fields as numbers: SIZE in bits 11:10, CLASS in bits 9:8, SEL in bits 7:0. -/
theorem Request.size_toNat (r : Request) : r.size.toNat = r.desc.toNat / 1024 := by
  have := r.desc.isLt
  rw [Request.size, BitVec.extractLsb'_toNat, Nat.shiftRight_eq_div_pow]
  omega

theorem Request.cls_toNat (r : Request) : r.cls.toNat = r.desc.toNat / 256 % 4 := by
  rw [Request.cls, BitVec.extractLsb'_toNat, Nat.shiftRight_eq_div_pow]

theorem Request.sel_toNat (r : Request) : r.sel.toNat = r.desc.toNat % 256 := by
  rw [Request.sel, BitVec.extractLsb'_toNat, Nat.shiftRight_zero]

/-- A descriptor as the number its fields spell (R51). -/
theorem append_fields_eq_ofNat (size cls : BitVec 2) (sel : Byte) :
    size ++ cls ++ sel = BitVec.ofNat 12 (1024 * size.toNat + 256 * cls.toNat + sel.toNat) := by
  have hsize := Request.size_toNat ⟨size ++ cls ++ sel, 0#32⟩
  have hcls := Request.cls_toNat ⟨size ++ cls ++ sel, 0#32⟩
  have hsel := Request.sel_toNat ⟨size ++ cls ++ sel, 0#32⟩
  simp only [Request.size_mk, Request.cls_mk, Request.sel_mk] at hsize hcls hsel
  have hnumber : 1024 * size.toNat + 256 * cls.toNat + sel.toNat = (size ++ cls ++ sel).toNat := by omega
  rw [hnumber, BitVec.ofNat_toNat, BitVec.setWidth_eq]

/-! ### The checks, one equation each (R52) -/

theorem regAt_eq_some {off : Byte} {g : Reg} : regAt off = some g ↔ g.offset = off := by
  refine ⟨fun h => ?_, fun h => h ▸ regAt_offset g⟩
  simpa using List.find?_some h

theorem regAt_eq_none {off : Byte} : regAt off = none ↔ ∀ g : Reg, g.offset ≠ off := by
  simp [regAt, Reg.mem_all]

theorem Reg.offset_aligned (g : Reg) : g.offset.extractLsb' 0 2 = 0b00#2 := by cases g <;> decide

section

variable {size : BitVec 2} {sel : Byte} {access : Reg → Instr}

theorem decodeBus_reservedSize : decodeBus 0b11#2 sel access = .refuse .reservedSize := rfl

theorem decodeBus_badSize (h : size.toNat < 2) : decodeBus size sel access = .busError .badSize := by
  have h3 : size ≠ 0b11#2 := fun he => by simp [he] at h
  have h2 : size ≠ 0b10#2 := fun he => by simp [he] at h
  rw [decodeBus, if_neg h3, if_pos h2]

theorem decodeBus_misaligned (h : sel.extractLsb' 0 2 ≠ 0b00#2) :
    decodeBus 0b10#2 sel access = .busError .misaligned := by
  simp [decodeBus, h]

theorem decodeBus_unmapped (ha : sel.extractLsb' 0 2 = 0b00#2) (hg : ∀ g : Reg, g.offset ≠ sel) :
    decodeBus 0b10#2 sel access = .busError .unmapped := by
  simp [decodeBus, ha, regAt_eq_none.mpr hg]

@[simp] theorem decodeBus_offset (g : Reg) : decodeBus 0b10#2 g.offset access = .op (access g) := by
  simp [decodeBus, g.offset_aligned, regAt_offset]

/-- The only accesses that are operations are the word accesses at a register's offset. -/
theorem decodeBus_eq_op {i : Instr} (h : decodeBus size sel access = .op i) :
    size = 0b10#2 ∧ ∃ g : Reg, sel = g.offset ∧ i = access g := by
  unfold decodeBus at h
  split at h
  · cases h
  split at h
  · cases h
  next hsize =>
  split at h
  · cases h
  split at h
  · next g hg =>
    cases h
    exact ⟨not_not.mp hsize, g, (regAt_eq_some.mp hg).symm, rfl⟩
  · cases h

/-- The only event descriptors that are operations are TICK, ACTIVITY and RESET with SIZE 00. -/
theorem decodeEvent_eq_op {i : Instr} (h : decodeEvent size sel = .op i) :
    size = 0b00#2 ∧ (sel = 0#8 ∧ i = .tick ∨ sel = 1#8 ∧ i = .act ∨ sel = 2#8 ∧ i = .reset) := by
  unfold decodeEvent at h
  split at h
  · cases h
  next hsize =>
  refine ⟨not_not.mp hsize, ?_⟩
  split at h
  · next hsel => cases h; exact .inl ⟨hsel, rfl⟩
  split at h
  · next hsel => cases h; exact .inr (.inl ⟨hsel, rfl⟩)
  split at h
  · next hsel => cases h; exact .inr (.inr ⟨hsel, rfl⟩)
  · cases h

end

section

variable {r : Request}

theorem decode_reservedClass (h : r.cls = 0b11#2) : decode r = .refuse .reservedClass := by
  simp [decode, h]

theorem decode_event (h : r.cls = 0b10#2) : decode r = decodeEvent r.size r.sel := by
  simp [decode, h]

theorem decode_write (h : r.cls = 0b01#2) : decode r = decodeBus r.size r.sel (writeOf · r.wdata) := by
  simp [decode, h]

theorem decode_read (h : r.cls = 0b00#2) : decode r = decodeBus r.size r.sel readOf := by
  simp [decode, h]

/-- CLASS 00 and 01 are the bus accesses, which differ only in what an access of a register is. -/
theorem decode_bus (h : r.cls.toNat < 2) : ∃ access, decode r = decodeBus r.size r.sel access := by
  obtain h0 | h1 : r.cls.toNat = 0 ∨ r.cls.toNat = 1 := by omega
  · exact ⟨_, decode_read (BitVec.eq_of_toNat_eq h0)⟩
  · exact ⟨_, decode_write (BitVec.eq_of_toNat_eq h1)⟩

/-- CLASS is one of four. -/
theorem Request.cls_cases (r : Request) : r.cls = 0b00#2 ∨ r.cls = 0b01#2 ∨ r.cls = 0b10#2 ∨ r.cls = 0b11#2 := by
  generalize r.cls = c
  revert c
  decide

end

/-- Settles O42: each clause is the equation of its check, with the fields as numbers turned into bit vectors. -/
theorem decodeChecksTheFieldsInOrder : Obligations.DecodeChecksTheFieldsInOrder := by
  intro r size cls sel
  have hsize : ∀ {b : BitVec 2}, size = b.toNat → r.size = b := fun h => BitVec.eq_of_toNat_eq (r.size_toNat.trans h)
  have hcls : ∀ {b : BitVec 2}, cls = b.toNat → r.cls = b := fun h => BitVec.eq_of_toNat_eq (r.cls_toNat.trans h)
  have hsel : ∀ {b : Byte}, sel = b.toNat ↔ r.sel = b := by
    intro b
    rw [← BitVec.toNat_inj, r.sel_toNat]
  have haligned : r.sel.extractLsb' 0 2 = 0b00#2 ↔ sel % 4 = 0 := by
    rw [← BitVec.toNat_inj, BitVec.extractLsb'_toNat, r.sel_toNat]
    rfl
  have hbus : cls < 2 → ∃ access, decode r = decodeBus r.size r.sel access := fun h => decode_bus (r.cls_toNat ▸ h)
  refine ⟨fun h => decode_reservedClass (hcls h), fun h hs => ?_, fun h hs => ?_, fun h hs => ?_, fun h hs => ?_,
    fun h hs ha => ?_, fun h hs ha hg => ?_, fun g hs hg h => ?_, fun g hs hg h => ?_⟩
  · have hne : r.size ≠ 0b00#2 := fun he => hs (r.size_toNat.symm.trans (congrArg BitVec.toNat he))
    rw [decode_event (hcls h), decodeEvent, if_pos hne]
  · rw [decode_event (hcls h), hsize (b := 0b00#2) hs]
    simp only [decodeEvent, ← hsel]
    rfl
  · obtain ⟨access, hd⟩ := hbus h
    rw [hd, hsize (b := 0b11#2) hs, decodeBus_reservedSize]
  · obtain ⟨access, hd⟩ := hbus h
    rw [hd, decodeBus_badSize (r.size_toNat ▸ hs)]
  · obtain ⟨access, hd⟩ := hbus h
    rw [hd, hsize (b := 0b10#2) hs, decodeBus_misaligned (haligned.not.mpr ha)]
  · obtain ⟨access, hd⟩ := hbus h
    rw [hd, hsize (b := 0b10#2) hs,
      decodeBus_unmapped (haligned.mpr ha) fun g he => hg g (hsel.mpr he.symm).symm]
  · rw [decode_read (hcls h), hsize (b := 0b10#2) hs, hsel.mp hg.symm, decodeBus_offset]
  · rw [decode_write (hcls h), hsize (b := 0b10#2) hs, hsel.mp hg.symm, decodeBus_offset]

/-! ### Encoding and decoding are inverse (R51, R52, R54) -/

theorem encode_readOf (g : Reg) : encode (readOf g) = Machine.busRead g.offset := by cases g <;> rfl

theorem encode_writeOf (g : Reg) (w : Word) : encode (writeOf g w) = Machine.busWrite g.offset w := by cases g <;> rfl

/-- A write's encoding is the word access of its register; a read or an event has a fixed encoding, which evaluates. -/
@[simp] theorem decode_encode (i : Instr) : decode (encode i) = .op i := by
  cases i with
  | wrCrcCtrl w => exact decode_wordWrite .crcCtrl w
  | wrCrcData w => exact decode_wordWrite .crcData w
  | wrCrcValue w => exact decode_wordWrite .crcValue w
  | wrPktSeq w => exact decode_wordWrite .pktSeq w
  | wrPktRxcrc w => exact decode_wordWrite .pktRxcrc w
  | wrPktStatus w => exact decode_wordWrite .pktStatus w
  | wrPktFrame w => exact decode_wordWrite .pktFrame w
  | wrTmoCtrl w => exact decode_wordWrite .tmoCtrl w
  | wrTmoMax w => exact decode_wordWrite .tmoMax w
  | wrTmoCount w => exact decode_wordWrite .tmoCount w
  | wrTmoStatus w => exact decode_wordWrite .tmoStatus w
  | _ => rfl

/-- CLASS is 01 for a write, and the operand is 0 for the other operations. -/
@[simp] theorem encode_wf (i : Instr) : (encode i).wf = true := by
  rw [Request.wf_iff]
  cases i <;> simp [Request.cls, encode, Instr.descriptor, Instr.operand]

/-- A canonical request that spells an operation is that operation's encoding: by its CLASS, it is the word access or the
event the encoder gives, and where no operand is taken it carries 0. -/
theorem encode_of_decode {r : Request} {i : Instr} (hwf : r.wf = true) (h : decode r = .op i) : encode i = r := by
  obtain hcls | hcls | hcls | hcls := r.cls_cases
  · rw [decode_read hcls] at h
    obtain ⟨hsize, g, hsel, rfl⟩ := decodeBus_eq_op h
    have hw : r.wdata = 0#32 := (Request.wf_iff.mp hwf).resolve_left (by simp [hcls])
    rw [r.eq_mk_fields, hsize, hcls, hsel, hw, encode_readOf]
    rfl
  · rw [decode_write hcls] at h
    obtain ⟨hsize, g, hsel, rfl⟩ := decodeBus_eq_op h
    rw [encode_writeOf, Machine.busWrite, ← hsel, ← hcls, ← hsize, ← r.desc_eq_fields]
  · rw [decode_event hcls] at h
    have hw : r.wdata = 0#32 := (Request.wf_iff.mp hwf).resolve_left (by simp [hcls])
    obtain ⟨hsize, ⟨hsel, rfl⟩ | ⟨hsel, rfl⟩ | ⟨hsel, rfl⟩⟩ := decodeEvent_eq_op h <;>
      (rw [r.eq_mk_fields, hsize, hcls, hsel, hw]; rfl)
  · rw [decode_reservedClass hcls] at h
    cases h

/-- Settles O45: `decode_encode` and `encode_wf` one way, `encode_of_decode` the other. -/
theorem decodeAndEncodeAreInverse : Obligations.DecodeAndEncodeAreInverse :=
  ⟨fun i _ => ⟨decode_encode i, encode_wf i⟩, fun _ _ hwf h => encode_of_decode hwf h⟩

/-- Settles O44: the six words by evaluation. -/
theorem writtenOutWordsDecode : Obligations.WrittenOutWordsDecode := by
  unfold Obligations.WrittenOutWordsDecode
  decide

end Sys2Proof

/-! Operations as table words (log entry 4). -/

namespace Sys2Proof.Machine

/-- A canonical request is found again in its number of 48 bits. -/
theorem tableRequest_tableWord {r : Request} (hwf : r.wf = true) : tableRequest 48 (tableWord r) = some r := by
  have hdesc : r.desc.toNat < 4096 := r.desc.isLt
  have hwdata : r.wdata.toNat < 4294967296 := r.wdata.isLt
  obtain ⟨hzeros, hsmall⟩ : tableWord r / 4096 % 16 = 0 ∧ tableWord r < 2 ^ 48 := by
    rw [tableWord]
    omega
  have hlow : BitVec.ofNat 12 (tableWord r) = r.desc := BitVec.eq_of_toNat_eq (by
    rw [BitVec.toNat_ofNat, tableWord]
    omega)
  have hhigh : BitVec.ofNat 32 (tableWord r / 65536) = r.wdata := BitVec.eq_of_toNat_eq (by
    rw [BitVec.toNat_ofNat, tableWord]
    omega)
  simp only [tableRequest, Nat.mod_eq_of_lt hsmall, hlow, hhigh]
  exact if_pos ⟨hzeros, hsmall, hwf⟩

/-- Presenting a canonical request by its number puts it in front of the pending ones. -/
theorem withFetchWord_tableWord {r : Request} (s : State) (hwf : r.wf = true) :
    s.withFetchWord 48 (tableWord r) = s.presenting r := by
  rw [State.withFetchWord, presentTableWord, tableRequest_tableWord hwf]

/-- Settles O46: the number stands for the operation's canonical encoding, which decodes to it and, once presented, is
what the next step runs. -/
theorem aPresentedTableWordRunsItsOperation : Obligations.APresentedTableWordRunsItsOperation := by
  intro i s
  refine ⟨?_, ?_⟩
  · simp only [decodeTableWord, tableRequest_tableWord (encode_wf i), decode_encode]
  · rw [withFetchWord_tableWord s (encode_wf i)]
    exact aStepRunsTheDecodedOperation (s.presenting (encode i)) (encode i) s.pending i rfl (decode_encode i)

end Sys2Proof.Machine

/-! The wire layout of a packet (R58). -/

namespace Sys2Proof.Machine

/-- A sized packet is a data packet, whose payload is as long as its framing byte declares. -/
theorem Packet.sized_iff {p : Packet} : p.sized = true ↔
    (kindOf p.frame = .short ∨ kindOf p.frame = .long) ∧ p.payload.length = payloadLength (kindOf p.frame) := by
  simp [Packet.sized]

theorem Packet.wire_length (p : Packet) : p.wire.length = p.payload.length + 5 := by
  simp [Packet.wire]

/-- What follows the first three bytes is cut where the declared length says. -/
theorem Packet.ofWire_wire {p : Packet} (h : p.sized = true) : Packet.ofWire p.wire = some p := by
  obtain ⟨-, hlength⟩ := Packet.sized_iff.mp h
  have hpayload : (p.payload ++ [p.crcHi, p.crcLo]).take (payloadLength (kindOf p.frame)) = p.payload :=
    List.take_left' hlength
  have hchecksum : (p.payload ++ [p.crcHi, p.crcLo]).drop (payloadLength (kindOf p.frame)) = [p.crcHi, p.crcLo] :=
    List.drop_left' hlength
  simp only [Packet.wire, Packet.ofWire, List.cons_append, hpayload, hchecksum]
  exact if_pos h

/-- Settles O58: the bytes are cut at the declared length, and five bytes stand around the payload. -/
theorem aPacketIsItsWireBytes : Obligations.APacketIsItsWireBytes := by
  intro p h
  obtain ⟨-, hlength⟩ := Packet.sized_iff.mp h
  refine ⟨Packet.ofWire_wire h, fun hf => ?_, fun hf => ?_⟩
  · rw [p.wire_length, hlength, hf]
    rfl
  · rw [p.wire_length, hlength, hf]
    rfl

end Sys2Proof.Machine

/-! What the host's RECEIVE operations leave in the block (R79). -/

namespace Sys2Proof.Machine

/-! ### The validation result (R73 to R76, R84) -/

theorem seqOk_iff_sum {b : Block} : seqOk b = true ↔ b.seq.toNat + b.comp.toNat = 255 := by
  have hseq := b.seq.isLt
  have hcomp := b.comp.isLt
  rw [seqOk, beq_iff_eq, ← BitVec.toNat_inj, BitVec.toNat_add, BitVec.toNat_setWidth, BitVec.toNat_setWidth,
    BitVec.toNat_ofNat]
  omega

theorem readPktStatus_valid (b : Block) : (readReg .pktStatus b).getLsbD 2 = valid b := by
  simp only [readReg, readPktStatus, BitVec.getLsbD_setWidth, BitVec.getLsbD_append]
  simp

theorem readPktStatus_header (b : Block) : (readReg .pktStatus b).getLsbD 3 = header b := by
  simp only [readReg, readPktStatus, BitVec.getLsbD_setWidth, BitVec.getLsbD_append]
  simp

theorem receiveMove_pktStatus (b : Block) : receiveMove (readReg .pktStatus b) =
    if valid b then (if b.seq = 0x00#8 then .ackThenStart else .writePayload) else .nak := by
  rw [receiveMove, readPktStatus_valid, readPktStatus_header, header]
  cases valid b <;> simp

theorem valid_eventless (b : Block) : valid b.eventless = valid b := rfl

/-! ### The operations one after another -/

theorem runInstrs_append (s : State) (is js : List Instr) : runInstrs s (is ++ js) = runInstrs (runInstrs s is) js := by
  rw [runInstrs, List.map_append, runOps_append]
  rfl

theorem runInstrs_cons_of_exec {s t : State} {i : Instr} (h : exec i s = .next t) (is : List Instr) :
    runInstrs s (i :: is) = runInstrs t is := by
  rw [runInstrs_cons, perform_op (decode_encode i) h]

/-- Writes of CRC_DATA leave the rest of the block as it was. -/
theorem runInstrs_wrCrcData_block (s : State) (bs : List Byte) :
    (runInstrs s (bs.map fun b => .wrCrcData (byteWord b))).block = { s.block with crc := crcFold s.block.crc bs } := by
  induction bs generalizing s with
  | nil => rfl
  | cons b bs ih =>
    rw [List.map_cons, runInstrs_cons, ih, perform_encode_wrCrcData, State.yielding_block, byteWord, dataField_setWidth,
      crcFold_cons]

/-- The block that holds a packet: its framing byte, sequence, complement and checksum, and the CRC of its payload. -/
def Block.holding (b : Block) (p : Packet) : Block :=
  { b with frame := p.frame, seq := p.seq, comp := p.comp, crc := crc16 p.payload, rxcrc := p.checksum }

theorem frameField_byteWord (b : Byte) : frameField (byteWord b) = b := dataField_setWidth b

theorem seqField_pairWord (hi lo : Byte) : seqField (pairWord hi lo) = lo := by
  rw [seqField, pairWord, BitVec.extractLsb'_setWidth_of_le (by decide), BitVec.extractLsb'_append_eq_right]

theorem compField_pairWord (hi lo : Byte) : compField (pairWord hi lo) = hi := by
  rw [compField, pairWord, BitVec.extractLsb'_setWidth_of_le (by decide), BitVec.extractLsb'_append_eq_left]

theorem rxcrcField_pairWord (hi lo : Byte) : rxcrcField (pairWord hi lo) = hi ++ lo := by
  rw [rxcrcField, pairWord, BitVec.extractLsb'_setWidth_of_le (by decide), BitVec.extractLsb'_eq_self]

/-- The operations before the payload: framing byte, INIT, sequence and complement. -/
theorem runInstrs_receiveStart_block (s : State) (p : Packet) :
    (runInstrs s [.wrPktFrame (byteWord p.frame), .rdPktFrame, .wrCrcCtrl 0x1#32,
      .wrPktSeq (pairWord p.comp p.seq)]).block =
      { s.block with frame := p.frame, crc := crcInit, seq := p.seq, comp := p.comp } := by
  iterate 4 refine (congrArg State.block (runInstrs_cons_of_exec rfl _)).trans ?_
  rw [frameField_byteWord, seqField_pairWord, compField_pairWord]
  rfl

/-- The operations after the payload: the checksum, and a read, which changes nothing. -/
theorem runInstrs_receiveEnd_block (s : State) (p : Packet) :
    (runInstrs s [.wrPktRxcrc (pairWord p.crcHi p.crcLo), .rdPktStatus]).block =
      { s.block with rxcrc := p.checksum } := by
  iterate 2 refine (congrArg State.block (runInstrs_cons_of_exec rfl _)).trans ?_
  rw [rxcrcField_pairWord]
  rfl

theorem runInstrs_receiveOps_block (s : State) (p : Packet) :
    (runInstrs s (receiveOps p)).block = s.block.holding p := by
  rw [receiveOps, runInstrs_append, runInstrs_append, runInstrs_receiveEnd_block, runInstrs_wrCrcData_block,
    runInstrs_receiveStart_block]
  rfl

/-- A block that holds a packet is valid exactly when the document calls the packet valid (R14, R75). -/
theorem valid_holding (b : Block) (p : Packet) : valid (b.holding p) = p.isValid := by
  rw [Bool.eq_iff_iff, valid, Packet.isValid, Bool.and_eq_true, Bool.and_eq_true, seqOk_iff_sum, beq_iff_eq]
  rfl

theorem runOps_receiveOps_eventless {s : State} {p : Packet} {rs : List Request}
    (h : rs.filter (fun r => !r.isEvent) = (receiveOps p).map encode) :
    (runOps s rs).block.eventless = (s.block.holding p).eventless := by
  rw [runOps_filter_events_eventless (s' := s) rs rfl, h, ← runInstrs_receiveOps_block]
  rfl

/-- Settles O59: the events change only `COUNT` and `TICKF`, and the operations without them leave the block holding the
packet. -/
theorem receivingAPacketValidatesIt : Obligations.ReceivingAPacketValidatesIt := by
  intro s p rs h b
  have hb : b.eventless = (s.block.holding p).eventless := runOps_receiveOps_eventless h
  have hvalid : valid b = p.isValid := by
    rw [← valid_eventless, hb, valid_eventless, valid_holding]
  have hseq : b.seq = p.seq := congrArg Block.seq hb
  have hframe : b.frame = p.frame := congrArg Block.frame hb
  exact ⟨hvalid, hframe, by rw [receiveMove_pktStatus, hvalid, hseq]⟩

end Sys2Proof.Machine

/-! What the assembler's lines assemble to (R59, R60). -/

namespace Sys2Proof.Machine.Asm

/-! ### Numerals in range (R59) -/

@[simp] theorem asmValueOk_word (w : Word) : asmValueOk w.toNat = true := decide_eq_true w.isLt

@[simp] theorem asmByteOk_byte (b : Byte) : asmByteOk b.toNat = true := decide_eq_true b.isLt

@[simp] theorem asmValueOk_byte (b : Byte) : asmValueOk b.toNat = true :=
  decide_eq_true (Nat.lt_trans b.isLt (by decide))

theorem asmValueOk_eq_false {v : Nat} (h : 2 ^ 32 ≤ v) : asmValueOk v = false := decide_eq_false (Nat.not_lt.mpr h)

theorem asmByteOk_eq_false {off : Nat} (h : 256 ≤ off) : asmByteOk off = false := decide_eq_false (Nat.not_lt.mpr h)

theorem assemble_of_wf {l : AsmLine} (h : l.wf = true) : assemble l = some ((expand l).flatMap requestsOf) := if_pos h

theorem assemble_of_not_wf {l : AsmLine} (h : l.wf = false) : assemble l = none := if_neg (by simp [h])

/-! ### Operation lines and raw forms (R59) -/

theorem assemble_rdRaw (z : RawSize) (off : Byte) :
    assemble (.rdRaw z off.toNat) = some [⟨sizeBits z ++ 0b00#2 ++ off, 0#32⟩] := by
  rw [assemble_of_wf (by simp [AsmLine.wf])]
  simp [expand, requestsOf]

theorem assemble_wrRaw (z : RawSize) (off : Byte) (w : Word) :
    assemble (.wrRaw z off.toNat w.toNat) = some [⟨sizeBits z ++ 0b01#2 ++ off, w⟩] := by
  rw [assemble_of_wf (by simp [AsmLine.wf])]
  simp [expand, requestsOf]

theorem assemble_wr (g : Reg) (w : Word) : assemble (.wr g w.toNat) = some [encode (writeOf g w)] := by
  rw [assemble_of_wf (by simp [AsmLine.wf])]
  simp [expand, requestsOf]

/-- Settles O55: every line in range is its one request, and a numeral out of range makes the line ill-formed. -/
theorem assemblerLinesAssembleToTheirOperations : Obligations.AssemblerLinesAssembleToTheirOperations := by
  refine ⟨fun g => ⟨rfl, ?_⟩, fun g w => ⟨assemble_wr g w, ?_⟩, ⟨rfl, rfl, rfl⟩, fun z size off w hz => ?_,
    fun v hv => ⟨fun g => ?_, fun z off => ?_⟩, fun z off v hoff => ⟨?_, ?_⟩⟩
  · rw [assemble_rdRaw, encode_readOf]
    rfl
  · rw [assemble_wrRaw, encode_writeOf]
    rfl
  · have hsize : (sizeBits z).toNat = size := by
      obtain ⟨rfl, rfl⟩ | ⟨rfl, rfl⟩ | ⟨rfl, rfl⟩ :
          (z = .byte ∧ size = 0) ∨ (z = .half ∧ size = 1) ∨ (z = .word ∧ size = 2) := by simpa using hz
      all_goals rfl
    rw [assemble_rdRaw, assemble_wrRaw, append_fields_eq_ofNat, append_fields_eq_ofNat, hsize]
    exact ⟨rfl, rfl⟩
  · exact assemble_of_not_wf (asmValueOk_eq_false hv)
  · exact assemble_of_not_wf (by simp [AsmLine.wf, asmValueOk_eq_false hv])
  · exact assemble_of_not_wf (asmByteOk_eq_false hoff)
  · exact assemble_of_not_wf (by simp [AsmLine.wf, asmByteOk_eq_false hoff])

/-! ### Pseudo-operations (R60) -/

theorem flatMap_requestsOf_wr (g : Reg) (vs : List Nat) :
    (vs.map (AsmLine.wr g)).flatMap requestsOf = vs.map fun v => encode (writeOf g (BitVec.ofNat 32 v)) := by
  rw [List.flatMap_map, List.map_eq_flatMap]
  rfl

theorem ofNat_byte (b : Byte) : BitVec.ofNat 32 b.toNat = b.setWidth 32 := BitVec.ofNat_toNat 32 b

theorem ofNat_pair (hi lo : Byte) : BitVec.ofNat 32 ((hi.toNat <<< 8) ||| lo.toNat) = (hi ++ lo).setWidth 32 := by
  rw [← BitVec.toNat_append, BitVec.ofNat_toNat]

/-- Settles O56: each line is in range and expands to writes, whose values are the bytes and words listed. -/
theorem pseudoOperationsExpandAsListed : Obligations.PseudoOperationsExpandAsListed := by
  refine ⟨rfl, fun b => ?_, fun b bs => ?_, fun b n => ?_, fun s c => ?_, fun hi lo => ?_, fun b => ?_, fun m => ?_,
    rfl, rfl, rfl⟩
  · rw [assemble_of_wf (by simp [AsmLine.wf]), ← ofNat_byte]
    rfl
  · rw [assemble_of_wf (by simp [AsmLine.wf]), expand, flatMap_requestsOf_wr, List.map_map]
    simp only [← ofNat_byte]
    rfl
  · rw [assemble_of_wf (by simp [AsmLine.wf]), expand, ← List.map_replicate, flatMap_requestsOf_wr, List.map_replicate,
      ofNat_byte]
    rfl
  · rw [assemble_of_wf (by simp [AsmLine.wf]), ← ofNat_pair]
    rfl
  · rw [assemble_of_wf (by simp [AsmLine.wf]), ← ofNat_pair]
    rfl
  · rw [assemble_of_wf (by simp [AsmLine.wf]), ← ofNat_byte]
    rfl
  · rw [assemble_of_wf (by simp [AsmLine.wf])]
    simp [expand, requestsOf, writeOf]

end Sys2Proof.Machine.Asm

/-! How the 4096 descriptors fall into the classes of R55, field by field. -/

namespace Sys2Proof

/-- How many of the 256 SELs make, with this SIZE and CLASS, a descriptor that decodes to what `p` admits. -/
def selCount (p : Decoded → Bool) (size cls : BitVec 2) : Nat :=
  (List.range 256).countP fun sel => p (decode ⟨size ++ cls ++ BitVec.ofNat 8 sel, 0#32⟩)

theorem countP_replicate_eq_mul (p : Decoded → Bool) (n : Nat) (d : Decoded) :
    (List.replicate n d).countP p = n * (p d).toNat := by
  rw [List.countP_replicate]
  cases p d <;> simp

/-- The count over a row is the count over any other arrangement of what it decodes to. -/
theorem selCount_of_perm {size cls : BitVec 2} {ds : List Decoded}
    (h : ((List.range 256).map fun sel => decode ⟨size ++ cls ++ BitVec.ofNat 8 sel, 0#32⟩).Perm ds)
    (p : Decoded → Bool) : selCount p size cls = ds.countP p := by
  rw [← h.countP_eq, List.countP_map]
  rfl

/-- Where SEL is not looked at, all 256 descriptors decode alike. -/
theorem selCount_of_forall {size cls : BitVec 2} {d : Decoded}
    (h : ∀ sel : Byte, decode ⟨size ++ cls ++ sel, 0#32⟩ = d) (p : Decoded → Bool) :
    selCount p size cls = 256 * (p d).toNat := by
  rw [← countP_replicate_eq_mul]
  refine selCount_of_perm ?_ p
  simp only [h, List.map_const', List.length_range]
  rfl

theorem selCount_reservedClass (p : Decoded → Bool) (size : BitVec 2) :
    selCount p size 0b11#2 = 256 * (p (.refuse .reservedClass)).toNat :=
  selCount_of_forall (fun _ => decode_reservedClass (Request.cls_mk _ _ _ _)) p

theorem selCount_eventSize (p : Decoded → Bool) {size : BitVec 2} (h : size ≠ 0b00#2) :
    selCount p size 0b10#2 = 256 * (p (.refuse .eventSize)).toNat :=
  selCount_of_forall (fun _ => by rw [decode_event (Request.cls_mk _ _ _ _), Request.size_mk, decodeEvent, if_pos h]) p

theorem selCount_reservedSize (p : Decoded → Bool) {cls : BitVec 2} (h : cls.toNat < 2) :
    selCount p 0b11#2 cls = 256 * (p (.refuse .reservedSize)).toNat :=
  selCount_of_forall (fun sel => by
    obtain ⟨access, hd⟩ := decode_bus (r := ⟨0b11#2 ++ cls ++ sel, 0#32⟩) (by rwa [Request.cls_mk])
    rw [hd, Request.size_mk, decodeBus_reservedSize]) p

theorem selCount_badSize (p : Decoded → Bool) {size cls : BitVec 2} (hs : size.toNat < 2) (h : cls.toNat < 2) :
    selCount p size cls = 256 * (p (.busError .badSize)).toNat :=
  selCount_of_forall (fun sel => by
    obtain ⟨access, hd⟩ := decode_bus (r := ⟨size ++ cls ++ sel, 0#32⟩) (by rwa [Request.cls_mk])
    rw [hd, Request.size_mk, decodeBus_badSize hs]) p

/-- The events: three numbers, and 253 reserved ones. -/
theorem selCount_events (p : Decoded → Bool) : selCount p 0b00#2 0b10#2 =
    [Instr.tick, .act, .reset].countP (p ∘ .op) + 253 * (p (.refuse .reservedEvent)).toNat := by
  rw [selCount_of_perm (ds := [Instr.tick, .act, .reset].map .op ++ List.replicate 253 (.refuse .reservedEvent))
    (by decide +kernel), List.countP_append, List.countP_map, countP_replicate_eq_mul]

/-- What the 256 word accesses of one CLASS decode to: eleven registers, 192 unaligned offsets, and 53 that hold no
register. -/
def wordRow (access : Reg → Instr) : List Decoded :=
  Reg.all.map (.op ∘ access) ++ List.replicate 192 (.busError .misaligned) ++ List.replicate 53 (.busError .unmapped)

theorem countP_wordRow (p : Decoded → Bool) (access : Reg → Instr) : (wordRow access).countP p =
    Reg.all.countP (p ∘ .op ∘ access) + 192 * (p (.busError .misaligned)).toNat
      + 53 * (p (.busError .unmapped)).toNat := by
  rw [wordRow, List.countP_append, List.countP_append, List.countP_map, countP_replicate_eq_mul,
    countP_replicate_eq_mul]

theorem selCount_wordReads (p : Decoded → Bool) : selCount p 0b10#2 0b00#2 = (wordRow readOf).countP p :=
  selCount_of_perm (by decide +kernel) p

theorem selCount_wordWrites (p : Decoded → Bool) : selCount p 0b10#2 0b01#2 = (wordRow (writeOf · 0#32)).countP p :=
  selCount_of_perm (by decide +kernel) p

/-! ### The sum over SIZE and CLASS -/

theorem countP_range_mul (f : Nat → Bool) (m n : Nat) : (List.range (m * n)).countP f =
    ((List.range m).map fun k => (List.range n).countP fun j => f (n * k + j)).sum := by
  induction m with
  | zero => simp
  | succ m ih =>
    rw [Nat.succ_mul, List.range_add, List.countP_append, ih, List.countP_map, List.range_succ, List.map_append,
      List.sum_append, List.map_singleton, List.sum_singleton, Nat.mul_comm m n]
    rfl

/-- The descriptors are counted by SIZE, then CLASS, then SEL. -/
theorem countP_descriptors (p : Decoded → Bool) :
    (List.range 4096).countP (fun d => p (decode ⟨BitVec.ofNat 12 d, 0#32⟩)) =
      ((List.range 4).map fun size => ((List.range 4).map fun cls =>
        selCount p (BitVec.ofNat 2 size) (BitVec.ofNat 2 cls)).sum).sum := by
  rw [countP_range_mul _ 4 1024]
  refine congrArg List.sum (List.map_congr_left fun size hsize => ?_)
  rw [countP_range_mul _ 4 256]
  refine congrArg List.sum (List.map_congr_left fun cls hcls => ?_)
  refine List.countP_congr fun sel hsel => ?_
  have hfields : BitVec.ofNat 12 (1024 * size + (256 * cls + sel)) =
      BitVec.ofNat 2 size ++ BitVec.ofNat 2 cls ++ BitVec.ofNat 8 sel := by
    rw [List.mem_range] at hsize hcls hsel
    rw [append_fields_eq_ofNat, BitVec.toNat_ofNat, BitVec.toNat_ofNat, BitVec.toNat_ofNat, Nat.mod_eq_of_lt hsize,
      Nat.mod_eq_of_lt hcls, Nat.mod_eq_of_lt hsel, Nat.add_assoc]
  rw [hfields]

/-- R55's table, for any property of what a descriptor decodes to. -/
theorem countP_decode (p : Decoded → Bool) :
    (List.range 4096).countP (fun d => p (decode ⟨BitVec.ofNat 12 d, 0#32⟩)) =
      Reg.all.countP (p ∘ .op ∘ readOf) + Reg.all.countP (p ∘ .op ∘ (writeOf · 0#32))
        + [Instr.tick, .act, .reset].countP (p ∘ .op)
        + 1024 * (p (.refuse .reservedClass)).toNat + 768 * (p (.refuse .eventSize)).toNat
        + 253 * (p (.refuse .reservedEvent)).toNat + 512 * (p (.refuse .reservedSize)).toNat
        + 1024 * (p (.busError .badSize)).toNat + 384 * (p (.busError .misaligned)).toNat
        + 106 * (p (.busError .unmapped)).toNat := by
  rw [countP_descriptors]
  simp (disch := decide) only [List.range_succ, List.range_zero, List.nil_append, List.cons_append, List.map_cons,
    List.map_nil, List.sum_cons, List.sum_nil, selCount_reservedClass, selCount_eventSize, selCount_events,
    selCount_reservedSize, selCount_badSize, selCount_wordReads, selCount_wordWrites, countP_wordRow]
  omega

/-- Settles O43: each count is R55's table (`countP_decode`) at its property. -/
theorem descriptorsFallIntoTheCountedClasses : Obligations.DescriptorsFallIntoTheCountedClasses := by
  unfold Obligations.DescriptorsFallIntoTheCountedClasses
  intro count
  have hcount : ∀ p, count p = _ := countP_decode
  clear_value count
  refine ⟨?_, ?_, ?_, ?_, ?_, ?_, ?_, ?_, ?_, ?_⟩ <;> exact (hcount _).trans rfl

end Sys2Proof

/-! The six operations on the CRC registers and the writes to read-only registers (R67 to R72, R85, R99), and the CRC
function as numbers and as a fold (R61 to R64). -/

namespace Sys2Proof.Machine

/-! ### The operations (R67 to R72) -/

/-- Bit 0 of an operand as its number shows it (R67). -/
theorem initField_iff {w : Word} : initField w = true ↔ w.toNat % 2 = 1 := by
  rw [initField, ← BitVec.testBit_toNat, Nat.testBit_zero, decide_eq_true_iff]

/-- Bits 7:0 of an operand as its number shows them (R69). -/
theorem dataField_eq_ofNat (w : Word) : dataField w = BitVec.ofNat 8 (w.toNat % 256) := by
  refine BitVec.eq_of_toNat_eq ?_
  rw [dataField, BitVec.extractLsb'_toNat, Nat.shiftRight_zero, BitVec.toNat_ofNat, Nat.mod_mod]

theorem exec_wrCrcCtrl (w : Word) (s : State) : exec (.wrCrcCtrl w) s =
    commit { s.block with crc := if w.toNat % 2 = 1 then crcInit else s.block.crc } s := by
  rw [exec, execWrCrcCtrl]
  simp only [initField_iff]
  split <;> rfl

/-- Settles O4: INIT is the operand's parity (`exec_wrCrcCtrl`). -/
theorem writeCrcCtrlInitialisesTheCrc : Obligations.WriteCrcCtrlInitialisesTheCrc :=
  ⟨decode_wordWrite .crcCtrl, exec_wrCrcCtrl⟩

/-- Settles O5: each read returns its register's word (`exec_readOf`). -/
theorem readsOfTheCrcRegistersReturnTheirWords : Obligations.ReadsOfTheCrcRegistersReturnTheirWords := by
  refine ⟨decode_wordRead .crcCtrl, decode_wordRead .crcData, decode_wordRead .crcValue, fun s =>
    ⟨exec_readOf .crcCtrl s, exec_readOf .crcData s, ?_⟩⟩
  rw [BitVec.ofNat_toNat]
  exact exec_readOf .crcValue s

/-- Settles O6: the byte fed is the operand's number modulo 256 (`dataField_eq_ofNat`). -/
theorem writeCrcDataFeedsOneByte : Obligations.WriteCrcDataFeedsOneByte := by
  refine ⟨decode_wordWrite .crcData, fun w s => ?_, by decide⟩
  rw [exec, execWrCrcData, dataField_eq_ofNat]
  rfl

/-- Settles O7: each of the three writes commits the block as it is. -/
theorem writesToReadOnlyRegistersHaveNoEffect : Obligations.WritesToReadOnlyRegistersHaveNoEffect :=
  ⟨decode_wordWrite .crcValue, decode_wordWrite .pktStatus, decode_wordWrite .tmoCount, fun _ _ => ⟨rfl, rfl, rfl⟩⟩

/-! ### The update on naturals (R61) -/

/-- One shift of the update on naturals, truncated to 16 bits (R12, R61). -/
def crcShiftNat (x : Nat) : Nat :=
  if x / 32768 = 1 then ((x * 2) ^^^ 0x1021) % 65536 else (x * 2) % 65536

/-- The top bit of the register as its number shows it. -/
theorem getLsbD_top_iff {c : Half} : c.getLsbD 15 = true ↔ c.toNat / 32768 = 1 := by
  have hlt : c.toNat < 65536 := c.isLt
  rw [← BitVec.testBit_toNat, Nat.testBit_eq_decide_div_mod_eq, decide_eq_true_iff]
  omega

theorem crcShift_toNat (c : Half) : (crcShift c).toNat = crcShiftNat c.toNat := by
  rw [crcShift, crcShiftNat, apply_ite BitVec.toNat, BitVec.toNat_xor, BitVec.toNat_shiftLeft, Nat.shiftLeft_eq]
  simp only [getLsbD_top_iff]
  rw [show 65536 = 2 ^ 16 from rfl, Nat.xor_mod_two_pow]
  rfl

theorem crcShifts_eq_iterate (n : Nat) : crcShifts n = crcShift^[n] := by
  induction n with
  | zero => rfl
  | succ n ih => exact funext fun c => congrFun ih (crcShift c)

theorem crcShifts_toNat (n : Nat) (c : Half) : (crcShifts n c).toNat = crcShiftNat^[n] c.toNat := by
  rw [crcShifts_eq_iterate]
  exact (Function.Semiconj.iterate_right crcShift_toNat n) c

/-- A byte in the high half of the register, where `crcStep` adds it (R61). -/
def highByte (b : Byte) : Half := b.setWidth 16 <<< 8

theorem crcStep_eq (c : Half) (b : Byte) : crcStep c b = crcShifts 8 (c ^^^ highByte b) := rfl

theorem highByte_toNat (b : Byte) : (highByte b).toNat = b.toNat * 256 := by
  have := b.isLt
  rw [highByte, BitVec.toNat_shiftLeft, BitVec.toNat_setWidth, Nat.shiftLeft_eq]
  omega

/-- Settles O8: each shift is the shift on naturals (`crcShift_toNat`), and so are eight. -/
theorem crcStepIsEightShiftsWithFeedback : Obligations.CrcStepIsEightShiftsWithFeedback := by
  intro c b
  rw [crcStep_eq, crcShifts_toNat, BitVec.toNat_xor, highByte_toNat]
  rfl

/-! ### The fold (R62, R63) -/

theorem crc16_append (as bs : List Byte) : crc16 (as ++ bs) = crcFold (crc16 as) bs := crcFold_append crcInit as bs

/-- Settles O10: `crc16` is a fold, which takes a further byte at the end as one more step (`crc16_append`). -/
theorem crcOfASequenceIsTheFoldFromZero : Obligations.CrcOfASequenceIsTheFoldFromZero :=
  ⟨rfl, fun bs b => crc16_append bs [b]⟩

/-- An operation that does not initialise the CRC feeds it the bytes it is said to feed, one or none (R63, R69). -/
theorem exec_crc {i : Instr} {s t : State} (hi : i.initialisesCrc = false) (h : exec i s = .next t) :
    t.block.crc = crcFold s.block.crc i.fedByte.toList := by
  cases i with cases h
  | wrCrcCtrl w => exact congrArg Block.crc (if_neg (Bool.eq_false_iff.mp hi))
  | reset => cases hi
  | wrTmoStatus w => exact ite_block_leaves Block.crc rfl
  | tick => exact ite_block_leaves Block.crc rfl
  | act => exact ite_block_leaves Block.crc rfl
  | _ => rfl

/-- An operation that initialises the CRC leaves it at its initial value (R63, R67, R115). -/
theorem exec_crc_of_initialises {i : Instr} {s t : State} (hi : i.initialisesCrc = true) (h : exec i s = .next t) :
    t.block.crc = crcInit := by
  cases i with cases h
  | wrCrcCtrl w => exact congrArg Block.crc (if_pos hi)
  | reset => rfl
  | _ => cases hi

theorem perform_crc {s : State} {r : Request} (hr : r.initialisesCrc = false) :
    (perform s r).block.crc = crcFold s.block.crc r.fedByte.toList := by
  rw [Request.fedByte]
  cases hd : decode r with
  | op i =>
    obtain ⟨b, v, he⟩ := exec_shape i s
    rw [Request.initialisesCrc, Request.onOperation_op hd] at hr
    rw [perform_op hd he, exec_crc hr he, Request.onOperation_op hd]
  | busError c => rw [perform_busError hd, Request.onOperation_busError hd]; rfl
  | refuse w => rw [perform_refuse hd, Request.onOperation_refuse hd]; rfl

theorem perform_crc_of_initialises {s : State} {r : Request} (hr : r.initialisesCrc = true) :
    (perform s r).block.crc = crcInit := by
  rw [Request.initialisesCrc] at hr
  cases hd : decode r with
  | op i =>
    obtain ⟨b, v, he⟩ := exec_shape i s
    rw [Request.onOperation_op hd] at hr
    rw [perform_op hd he, exec_crc_of_initialises hr he]
  | busError c => simp [Request.onOperation_busError hd] at hr
  | refuse w => simp [Request.onOperation_refuse hd] at hr

theorem fedBytes_cons (r : Request) (rs : List Request) : fedBytes (r :: rs) = r.fedByte.toList ++ fedBytes rs := by
  rw [fedBytes, List.filterMap_cons]
  cases r.fedByte <;> rfl

/-- A run without an initialisation folds the update over the bytes it feeds, in order (R63). -/
theorem runOps_crc {rs : List Request} (hrs : ∀ r ∈ rs, r.initialisesCrc = false) (s : State) :
    (runOps s rs).block.crc = crcFold s.block.crc (fedBytes rs) := by
  induction rs generalizing s with
  | nil => rfl
  | cons r rs ih =>
    obtain ⟨hr, hrs⟩ := List.forall_mem_cons.mp hrs
    rw [runOps_cons, ih hrs, perform_crc hr, fedBytes_cons, crcFold_append]

/-- Settles O11: the initialisation leaves the fold's initial value, and the run folds its bytes (`runOps_crc`). -/
theorem crcValueEqualsTheFunctionOfTheBytesFed : Obligations.CrcValueEqualsTheFunctionOfTheBytesFed := by
  intro s start rs hstart hrs
  have hcrc : (runOps s (start :: rs)).block.crc = crc16 (fedBytes rs) := by
    rw [runOps_cons, runOps_crc hrs, perform_crc_of_initialises hstart, crc16]
  exact ⟨hcrc, congrArg (BitVec.setWidth 32) hcrc⟩

/-! ### The residue (R64) -/

/-- Without a bit that leaves at the top there is no feedback, and the shifts only shift. -/
theorem crcShifts_eq_shiftLeft {n : Nat} {c : Half} (h : c.toNat * 2 ^ n < 65536) : crcShifts n c = c <<< n := by
  induction n generalizing c with
  | zero => simp
  | succ n ih =>
    rw [Nat.pow_succ', ← Nat.mul_assoc] at h
    have hdouble : c.toNat * 2 < 65536 := Nat.lt_of_le_of_lt (Nat.le_mul_of_pos_right _ (Nat.two_pow_pos n)) h
    have htop : ¬ c.getLsbD 15 = true := by
      rw [getLsbD_top_iff]
      omega
    have hshift : crcShift c = c <<< 1 := if_neg htop
    have hnat : (c <<< 1).toNat = c.toNat * 2 := by
      rw [BitVec.toNat_shiftLeft, Nat.shiftLeft_eq]
      omega
    rw [crcShifts_succ, hshift, ih (hnat ▸ h), ← BitVec.shiftLeft_add, Nat.add_comm 1 n]

/-- Eight shifts move a byte from the low half of the register to the high half. -/
theorem crcShifts_byte (b : Byte) : crcShifts 8 (b.setWidth 16) = highByte b := by
  have := b.isLt
  refine crcShifts_eq_shiftLeft ?_
  rw [BitVec.toNat_setWidth]
  omega

theorem highByte_xor_lowByte (D : Half) :
    highByte (D.extractLsb' 8 8) ^^^ (D.extractLsb' 0 8).setWidth 16 = D := by
  refine BitVec.eq_of_getLsbD_eq fun i hi => ?_
  by_cases h : i < 8
  · simp [highByte, h, hi]
  · simp [highByte, h, hi, show i - 8 < 8 by omega, show 8 + (i - 8) = i by omega]

/-- Feeding two bytes is adding them to the register, high byte first, and shifting it out. -/
theorem crcStep_two_bytes (S D : Half) :
    crcStep (crcStep S (D.extractLsb' 8 8)) (D.extractLsb' 0 8) = crcShifts 16 (S ^^^ D) := by
  rw [crcStep_eq, crcStep_eq, ← crcShifts_byte (D.extractLsb' 0 8), ← crcShifts_xor, ← crcShifts_add, BitVec.xor_assoc,
    highByte_xor_lowByte]

theorem crcShifts_of_zero (n : Nat) : crcShifts n 0#16 = 0#16 := by
  induction n with
  | zero => rfl
  | succ n ih => rw [crcShifts_succ, crcShift_zero, ih]

theorem crcShifts_eq_zero {n : Nat} {c : Half} : crcShifts n c = 0#16 ↔ c = 0#16 :=
  (crcShifts_injective n).eq_iff' (crcShifts_of_zero n)

theorem crcStep_two_bytes_eq_zero {S D : Half} :
    crcStep (crcStep S (D.extractLsb' 8 8)) (D.extractLsb' 0 8) = 0#16 ↔ D = S := by
  rw [crcStep_two_bytes, crcShifts_eq_zero, BitVec.xor_eq_zero_iff, eq_comm]

/-- Settles O13: two bytes are shifted out as their sum with the register, which loses nothing. -/
theorem residueIsZeroExactlyForTheRightChecksum : Obligations.ResidueIsZeroExactlyForTheRightChecksum := by
  refine ⟨fun S D => crcStep_two_bytes_eq_zero, fun payload D => ?_⟩
  rw [crc16_append]
  exact crcStep_two_bytes_eq_zero

end Sys2Proof.Machine

/-! What an altered payload does to its CRC (R65, R66). The shift is multiplication by x modulo the CRC polynomial
x^16 + x^12 + x^5 + 1 = (x + 1) · (x^15 + x^14 + x^13 + x^12 + x^4 + x^3 + x^2 + x + 1), so it permutes the register
values with a period that divides 32767 = 7 · 31 · 151, and the only values of a shorter period are the two it fixes. -/

namespace Sys2Proof.Machine

/-! ### One byte altered (R65) -/

theorem crcFold_injective_left (bs : List Byte) : Function.Injective (crcFold · bs) := by
  induction bs with
  | nil => exact fun _ _ h => h
  | cons b bs ih => exact fun _ _ h => crcStep_injective_left b (ih h)

/-- Replacing one byte of a sequence changes its CRC exactly when the byte differs. -/
theorem crcFold_set_eq_iff {bs : List Byte} {i : Nat} (hi : i < bs.length) (c : Half) (b : Byte) :
    crcFold c (bs.set i b) = crcFold c bs ↔ b = bs[i] := by
  induction bs generalizing c i with
  | nil => cases hi
  | cons a bs ih =>
    cases i with
    | zero => exact (crcFold_injective_left bs).eq_iff.trans (crcStep_injective_right c).eq_iff
    | succ i => exact ih (Nat.lt_of_succ_lt_succ hi) (crcStep c a)

/-- Settles O14, for a payload of any length: the flipped byte differs (`crcFold_set_eq_iff`). -/
theorem singleBitErrorsAreDetected : Obligations.SingleBitErrorsAreDetected := by
  intro payload i k hi hk _ h
  have hflip : payload[i] ^^^ BitVec.twoPow 8 k = payload[i] := (crcFold_set_eq_iff hi crcInit _).mp h
  have hbit := congrArg (BitVec.getLsbD · k) hflip
  simp [hk] at hbit

/-! ### Linear maps of the register

`CrcLinear f` says that `f` is multiplication by a polynomial; it is then multiplication by the residue `f 1`. -/

/-- `f` respects sums and commutes with the shift. -/
structure CrcLinear (f : Half → Half) : Prop where
  map_xor (a b : Half) : f (a ^^^ b) = f a ^^^ f b
  map_shift (c : Half) : f (crcShift c) = crcShift (f c)

theorem CrcLinear.map_shifts {f : Half → Half} (hf : CrcLinear f) (n : Nat) (c : Half) :
    f (crcShifts n c) = crcShifts n (f c) := by
  induction n generalizing c with
  | zero => rfl
  | succ n ih => rw [crcShifts_succ, ih, hf.map_shift, crcShifts_succ]

theorem CrcLinear.map_zero {f : Half → Half} (hf : CrcLinear f) : f 0#16 = 0#16 := by
  rw [← BitVec.xor_self (x := 0#16), hf.map_xor, BitVec.xor_self, BitVec.xor_self]

/-- The sum of the shifts of `c` that the `n` low bits of `a` select. -/
def crcMulLow (a c : Half) : Nat → Half
  | 0 => 0#16
  | n + 1 => crcMulLow a c n ^^^ (if a.getLsbD n then crcShifts n c else 0#16)

/-- The product modulo the CRC polynomial. -/
def crcMul (a c : Half) : Half := crcMulLow a c 16

theorem CrcLinear.map_crcMulLow {f : Half → Half} (hf : CrcLinear f) (a c : Half) (n : Nat) :
    f (crcMulLow a c n) = crcMulLow a (f c) n := by
  induction n with
  | zero => exact hf.map_zero
  | succ n ih => rw [crcMulLow, hf.map_xor, ih, apply_ite f, hf.map_shifts, hf.map_zero, crcMulLow]

theorem crcShifts_one {n : Nat} (hn : n < 16) : crcShifts n 1#16 = BitVec.twoPow 16 n := by
  have hfits : (1#16).toNat * 2 ^ n < 65536 := by
    rw [show (1#16).toNat = 1 from rfl, Nat.one_mul]
    exact Nat.pow_lt_pow_right (by decide) hn
  exact crcShifts_eq_shiftLeft hfits

/-- The low bits of `a` select themselves from the shifts of 1. -/
theorem crcMulLow_one_getLsbD (a : Half) {n : Nat} (hn : n ≤ 16) (i : Nat) :
    (crcMulLow a 1#16 n).getLsbD i = (decide (i < n) && a.getLsbD i) := by
  induction n with
  | zero => simp [crcMulLow]
  | succ n ih =>
    have hterm : (if a.getLsbD n then BitVec.twoPow 16 n else 0#16).getLsbD i = (decide (n = i) && a.getLsbD i) := by
      by_cases hi : n = i
      · subst hi
        cases a.getLsbD n <;> simp [Nat.lt_of_succ_le hn]
      · cases a.getLsbD n <;> simp [BitVec.getLsbD_twoPow, hi]
    rw [crcMulLow, BitVec.getLsbD_xor, ih (Nat.le_of_succ_le hn), crcShifts_one hn, hterm]
    obtain hlt | rfl | hgt := Nat.lt_trichotomy i n
    · simp [hlt, hlt.ne', Nat.lt_succ_of_lt hlt]
    · simp
    · simp [hgt.ne, show ¬ i < n by omega, show ¬ i < n + 1 by omega]

theorem crcMul_one (a : Half) : crcMul a 1#16 = a := by
  refine BitVec.eq_of_getLsbD_eq fun i hi => ?_
  rw [crcMul, crcMulLow_one_getLsbD a (Nat.le_refl 16), decide_eq_true hi, Bool.true_and]

/-- A linear map is known by its value at 1. -/
theorem CrcLinear.eq_crcMul {f : Half → Half} (hf : CrcLinear f) (a : Half) : f a = crcMul a (f 1#16) := by
  rw [crcMul, ← hf.map_crcMulLow, ← crcMul, crcMul_one]

theorem CrcLinear.ext {f g : Half → Half} (hf : CrcLinear f) (hg : CrcLinear g) (h : f 1#16 = g 1#16) : f = g :=
  funext fun a => by rw [hf.eq_crcMul, hg.eq_crcMul, h]


theorem CrcLinear.shift : CrcLinear crcShift := ⟨crcShift_xor, fun _ => rfl⟩

theorem CrcLinear.shifts (n : Nat) : CrcLinear (crcShifts n) :=
  ⟨crcShifts_xor n, fun c => (CrcLinear.shift.map_shifts n c).symm⟩

theorem crcMulLow_xor (a c d : Half) (n : Nat) :
    crcMulLow a (c ^^^ d) n = crcMulLow a c n ^^^ crcMulLow a d n := by
  induction n with
  | zero => simp [crcMulLow]
  | succ n ih =>
    rw [crcMulLow, crcMulLow, crcMulLow, ih, crcShifts_xor]
    split
    · ac_rfl
    · simp

theorem CrcLinear.mul (a : Half) : CrcLinear (crcMul a) :=
  ⟨fun c d => crcMulLow_xor a c d 16, fun c => (CrcLinear.shift.map_crcMulLow a c 16).symm⟩

theorem CrcLinear.xor {f g : Half → Half} (hf : CrcLinear f) (hg : CrcLinear g) : CrcLinear fun c => f c ^^^ g c :=
  ⟨fun a b => by rw [hf.map_xor, hg.map_xor]; ac_rfl, fun c => by rw [hf.map_shift, hg.map_shift, crcShift_xor]⟩

theorem CrcLinear.comp {f g : Half → Half} (hf : CrcLinear f) (hg : CrcLinear g) : CrcLinear fun c => f (g c) :=
  ⟨fun a b => by rw [hg.map_xor, hf.map_xor], fun c => by rw [hg.map_shift, hf.map_shift]⟩

theorem CrcLinear.id : CrcLinear id := ⟨fun _ _ => rfl, fun _ => rfl⟩

/-! ### The period of the shift -/

/-- The power x^n by repeated squaring, for an exponent of at most `k` bits. -/
def crcPow : Nat → Nat → Half
  | 0, _ => 1#16
  | k + 1, n => crcShifts (n % 2) (crcMul (crcPow k (n / 2)) (crcPow k (n / 2)))

theorem crcPow_eq {k n : Nat} (hn : n < 2 ^ k) : crcPow k n = crcShifts n 1#16 := by
  induction k generalizing n with
  | zero =>
    obtain rfl : n = 0 := by omega
    rfl
  | succ k ih =>
    have hhalf : n / 2 < 2 ^ k := by omega
    have hsplit : n = n / 2 + (n / 2 + n % 2) := by omega
    calc crcPow (k + 1) n
      = crcShifts (n % 2) (crcMul (crcShifts (n / 2) 1#16) (crcShifts (n / 2) 1#16)) := by rw [crcPow, ih hhalf]
    _ = crcShifts (n % 2) (crcShifts (n / 2) (crcShifts (n / 2) 1#16)) := by rw [← (CrcLinear.shifts _).eq_crcMul]
    _ = crcShifts n 1#16 := by rw [← crcShifts_add, ← crcShifts_add, ← hsplit]

theorem isPeriodicPt_crcShift_iff {n : Nat} {c : Half} :
    Function.IsPeriodicPt crcShift n c ↔ crcShifts n c = c := by
  rw [crcShifts_eq_iterate]
  rfl

/-- x^32767 = 1 modulo the CRC polynomial. -/
theorem isPeriodicPt_crcShift (c : Half) : Function.IsPeriodicPt crcShift 32767 c := by
  have hone : crcPow 15 32767 = 1#16 := by decide +kernel
  have hid : crcShifts 32767 = id :=
    (CrcLinear.shifts 32767).ext CrcLinear.id ((crcPow_eq (by decide)).symm.trans hone)
  exact isPeriodicPt_crcShift_iff.mpr (congrFun hid c)

/-- Where x + 1 is a multiple `u` of x^d + 1 modulo the CRC polynomial, what `d` shifts fix, one shift fixes. -/
theorem crcShift_eq_self_of_crcMul {d : Nat} {c u : Half} (hd : d < 2 ^ 15)
    (hu : crcMul u (crcPow 15 d ^^^ 1#16) = crcShift 1#16 ^^^ 1#16) (hc : Function.IsPeriodicPt crcShift d c) :
    crcShift c = c := by
  have hmaps : (fun v => crcMul u (crcShifts d v ^^^ v)) = fun v => crcShift v ^^^ v :=
    ((CrcLinear.mul u).comp ((CrcLinear.shifts d).xor CrcLinear.id)).ext (CrcLinear.shift.xor CrcLinear.id)
      (crcPow_eq hd ▸ hu)
  have hsum : crcMul u (crcShifts d c ^^^ c) = crcShift c ^^^ c := congrFun hmaps c
  rw [isPeriodicPt_crcShift_iff.mp hc, BitVec.xor_self, (CrcLinear.mul u).map_zero] at hsum
  exact BitVec.xor_eq_zero_iff.mp hsum.symm

/-- A period may lose a prime factor that another period does not have. -/
theorem isPeriodicPt_of_not_dvd {α : Type} {f : α → α} {a : α} {p d n : Nat} (hp : p.Prime) (hpn : ¬ p ∣ n)
    (hpd : Function.IsPeriodicPt f (p * d) a) (hn : Function.IsPeriodicPt f n a) : Function.IsPeriodicPt f d a := by
  have hgcd : (p * d).gcd n = d.gcd n := (hp.coprime_iff_not_dvd.mpr hpn).gcd_mul_left_cancel d
  exact (hpd.gcd hn).trans_dvd (hgcd ▸ d.gcd_dvd_left n)

/-- What the shift does not fix has the full period: a shorter one would divide 4681, 1057 or 217, which are 32767
without one of its prime factors. -/
theorem crcShift_eq_self_of_isPeriodicPt {n : Nat} {c : Half} (hn : ¬ 32767 ∣ n)
    (hc : Function.IsPeriodicPt crcShift n c) : crcShift c = c := by
  have hfull := isPeriodicPt_crcShift c
  obtain h7 | h31 | h151 : ¬ 7 ∣ n ∨ ¬ 31 ∣ n ∨ ¬ 151 ∣ n := by omega
  · exact crcShift_eq_self_of_crcMul (d := 4681) (u := 0x1EA7#16) (by decide) (by decide +kernel)
      (isPeriodicPt_of_not_dvd (by norm_num) h7 hfull hc)
  · exact crcShift_eq_self_of_crcMul (d := 1057) (u := 0x05CA#16) (by decide) (by decide +kernel)
      (isPeriodicPt_of_not_dvd (by norm_num) h31 hfull hc)
  · exact crcShift_eq_self_of_crcMul (d := 217) (u := 0x52D1#16) (by decide) (by decide +kernel)
      (isPeriodicPt_of_not_dvd (by norm_num) h151 hfull hc)

/-- Of the values the shift fixes, only 0 has bit 0 clear: the shift moves the top bit there. -/
theorem eq_zero_of_crcShift_eq_self {c : Half} (hlow : c.getLsbD 0 = false) (h : crcShift c = c) : c = 0#16 := by
  cases htop : c.getLsbD 15 with
  | true =>
    rw [← h, crcShift, if_pos htop] at hlow
    simp at hlow
  | false =>
    rw [crcShift, htop, if_neg Bool.false_ne_true] at h
    bv_omega

/-! ### Two bytes swapped (R66) -/

theorem highByte_xor (a b : Byte) : highByte (a ^^^ b) = highByte a ^^^ highByte b := by
  rw [highByte, BitVec.setWidth_xor, BitVec.shiftLeft_xor_distrib, highByte, highByte]

theorem crcShifts_highByte_eq_self_iff {n : Nat} (hn : ¬ 32767 ∣ n) {b : Byte} :
    crcShifts n (highByte b) = highByte b ↔ b = 0#8 := by
  refine ⟨fun h => ?_, fun h => h ▸ crcShifts_of_zero n⟩
  have hzero : highByte b = 0#16 := eq_zero_of_crcShift_eq_self (by simp [highByte])
    (crcShift_eq_self_of_isPeriodicPt hn (isPeriodicPt_crcShift_iff.mpr h))
  refine BitVec.eq_of_toNat_eq (Nat.eq_of_mul_eq_mul_right (by decide : 0 < 256) ?_)
  rw [← highByte_toNat, hzero]
  rfl

/-- A difference in the register is shifted on by each byte. -/
theorem crcStep_xor_left (c d : Half) (b : Byte) : crcStep (c ^^^ d) b = crcStep c b ^^^ crcShifts 8 d := by
  rw [crcStep_eq, crcStep_eq, ← crcShifts_xor, BitVec.xor_assoc, BitVec.xor_assoc, BitVec.xor_comm d]

theorem crcStep_xor_right (c : Half) (a b : Byte) : crcStep c (a ^^^ b) = crcStep c a ^^^ crcShifts 8 (highByte b) := by
  rw [crcStep_eq, crcStep_eq, ← crcShifts_xor, highByte_xor, BitVec.xor_assoc]

theorem crcFold_xor (c d : Half) (bs : List Byte) :
    crcFold (c ^^^ d) bs = crcFold c bs ^^^ crcShifts (8 * bs.length) d := by
  induction bs generalizing c d with
  | nil => rfl
  | cons b bs ih =>
    rw [crcFold_cons, crcStep_xor_left, ih, crcFold_cons, ← crcShifts_add, List.length_cons, Nat.mul_succ, Nat.add_comm]

/-- Swapping the two ends of a stretch changes the CRC exactly when they differ: the difference of the first byte has to
be cancelled by that of the last, which is the same difference not yet shifted. -/
theorem crcFold_swap_eq_iff (c : Half) (a b : Byte) {mid : List Byte} (hmid : mid.length < 1024) (rest : List Byte) :
    crcFold c (b :: (mid ++ a :: rest)) = crcFold c (a :: (mid ++ b :: rest)) ↔ a = b := by
  obtain ⟨e, rfl⟩ : ∃ e, b = a ^^^ e := ⟨a ^^^ b, by rw [← BitVec.xor_assoc, BitVec.xor_self, BitVec.zero_xor]⟩
  have hn : ¬ 32767 ∣ 8 + 8 * mid.length := by omega
  have heq : a = a ^^^ e ↔ e = 0#8 := by
    rw [← BitVec.xor_eq_zero_iff, ← BitVec.xor_assoc, BitVec.xor_self, BitVec.zero_xor]
  simp only [crcFold_cons, crcFold_append, crcStep_xor_right, crcStep_xor_left, crcFold_xor, ← crcShifts_add]
  rw [BitVec.xor_right_inj, Nat.add_assoc, crcShifts_add, (crcShifts_injective _).eq_iff,
    crcShifts_highByte_eq_self_iff hn, heq]

/-- Swapping the bytes at two places, the first before the second. -/
theorem crcFold_set_set_eq_iff {bs : List Byte} {i j : Nat} (hij : i < j) (hj : j < bs.length)
    (hlength : bs.length ≤ 1024) (c : Half) :
    crcFold c ((bs.set i bs[j]).set j bs[i]) = crcFold c bs ↔ bs[i] = bs[j] := by
  induction bs generalizing c i j with
  | nil => cases hj
  | cons a bs ih =>
    obtain ⟨j, rfl⟩ : ∃ k, j = k + 1 := Nat.exists_eq_add_one_of_ne_zero (by omega)
    have hj : j < bs.length := Nat.lt_of_succ_lt_succ hj
    have hlength : bs.length < 1024 := hlength
    cases i with
    | zero =>
      have hmid : (bs.take j).length < 1024 := Nat.lt_of_le_of_lt (List.length_take_le' j bs) hlength
      have hset : ∀ b, bs.set j b = bs.take j ++ b :: bs.drop (j + 1) := fun b => by
        rw [List.set_eq_take_append_cons_drop, if_pos hj]
      have hswap := crcFold_swap_eq_iff c a bs[j] hmid (bs.drop (j + 1))
      rwa [← hset, ← hset, List.set_getElem_self] at hswap
    | succ i => exact ih (Nat.lt_of_succ_lt_succ hij) hj (Nat.le_of_lt hlength) (crcStep c a)

/-- Settles O15: by `crcFold_set_set_eq_iff`, whichever of the two places comes first. -/
theorem swappingTwoBytesChangesTheCrcExactlyWhenTheyDiffer :
    Obligations.SwappingTwoBytesChangesTheCrcExactlyWhenTheyDiffer := by
  intro bs i j hi hj hlength
  obtain hij | rfl | hji := Nat.lt_trichotomy i j
  · exact crcFold_set_set_eq_iff hij hj hlength crcInit
  · rw [List.set_getElem_self, List.set_getElem_self]
    exact iff_of_true rfl rfl
  · rw [List.set_comm _ _ hji.ne', eq_comm (a := bs[i])]
    exact crcFold_set_set_eq_iff hji hi hlength crcInit

end Sys2Proof.Machine

/-! The eight operations on the packet validator's registers (R80 to R87) and its derived flags (R73, R76, R77). -/

namespace Sys2Proof.Machine

/-! ### Fields and words as numbers -/

/-- Bits 7:0 of an operand as its number shows them (R80). -/
theorem seqField_eq_ofNat (w : Word) : seqField w = BitVec.ofNat 8 (w.toNat % 256) := dataField_eq_ofNat w

/-- Bits 7:0 of an operand as its number shows them (R86). -/
theorem frameField_eq_ofNat (w : Word) : frameField w = BitVec.ofNat 8 (w.toNat % 256) := dataField_eq_ofNat w

/-- Bits 15:8 of an operand as its number shows them (R80). -/
theorem compField_eq_ofNat (w : Word) : compField w = BitVec.ofNat 8 (w.toNat / 256 % 256) := by
  refine BitVec.eq_of_toNat_eq ?_
  rw [compField, BitVec.extractLsb'_toNat, Nat.shiftRight_eq_div_pow, BitVec.toNat_ofNat, Nat.mod_mod]

/-- Bits 15:0 of an operand as its number shows them (R82). -/
theorem rxcrcField_eq_ofNat (w : Word) : rxcrcField w = BitVec.ofNat 16 (w.toNat % 65536) := by
  refine BitVec.eq_of_toNat_eq ?_
  rw [rxcrcField, BitVec.extractLsb'_toNat, Nat.shiftRight_zero, BitVec.toNat_ofNat, Nat.mod_mod]

theorem toNat_append_bytes (hi lo : Byte) : (hi ++ lo).toNat = 256 * hi.toNat + lo.toNat := by
  rw [BitVec.toNat_append, ← Nat.shiftLeft_add_eq_or_of_lt lo.isLt, Nat.shiftLeft_eq, Nat.mul_comm]

theorem append_bytes_eq_ofNat (hi lo : Byte) : hi ++ lo = BitVec.ofNat 16 (256 * hi.toNat + lo.toNat) := by
  rw [← toNat_append_bytes, BitVec.ofNat_toNat, BitVec.setWidth_eq]

theorem readPktSeq_eq_ofNat (b : Block) :
    readReg .pktSeq b = BitVec.ofNat 32 (256 * b.comp.toNat + b.seq.toNat) := by
  rw [← toNat_append_bytes, BitVec.ofNat_toNat]
  rfl

/-- Two bytes and the same two swapped are one half word only if they are equal (R82). -/
theorem append_eq_append_swap_iff (a b : Byte) : a ++ b = b ++ a ↔ a = b := by
  rw [← BitVec.toNat_inj, toNat_append_bytes, toNat_append_bytes, ← BitVec.toNat_inj]
  omega

/-! ### The validation result (R73 to R76, R84) -/

theorem crcOk_iff {b : Block} : crcOk b = true ↔ b.crc = b.rxcrc := beq_iff_eq

/-- The byte that completes another to 255 is its complement. -/
theorem toNat_add_eq_255_iff_eq_not {a b : Byte} : a.toNat + b.toNat = 255 ↔ b = ~~~a := by
  have ha := a.isLt
  rw [← BitVec.toNat_inj, BitVec.toNat_not]
  omega

/-- The five possible words, by the two checks and the sequence (R84). -/
theorem readPktStatus_eq (b : Block) : readReg .pktStatus b =
    if seqOk b ∧ crcOk b then (if b.seq = 0x00#8 then 0x0000000F#32 else 0x00000017#32)
    else if seqOk b then 0x00000001#32
    else if crcOk b then 0x00000002#32
    else 0x00000000#32 := by
  simp only [readReg, readPktStatus, header, data, valid]
  cases seqOk b <;> cases crcOk b
  case true.true =>
    by_cases hseq : b.seq = 0x00#8
    · simp [hseq]
    · simp [hseq, bne, beq_eq_false_iff_ne.mpr hseq]
  all_goals simp

/-- Settles O20: the word of `readPktStatus_eq`, its two checks read on the registers. -/
theorem readPktStatusReturnsTheValidationResult : Obligations.ReadPktStatusReturnsTheValidationResult := by
  refine ⟨decode_wordRead .pktStatus, fun s => ?_⟩
  have hread := exec_readOf .pktStatus s
  simp only [readPktStatus_eq, seqOk_iff_sum, crcOk_iff] at hread
  exact hread

/-- Settles O19: the forms agree because the sum of two bytes is at most 510. -/
theorem sequenceCheckHasFourEqualForms : Obligations.SequenceCheckHasFourEqualForms := by
  intro b
  have hnot : seqOk b = true ↔ b.comp = ~~~b.seq := seqOk_iff_sum.trans toNat_add_eq_255_iff_eq_not
  have hallOnes : 255#8 - b.seq = ~~~b.seq := BitVec.allOnes_sub_eq_not b.seq
  refine ⟨seqOk_iff_sum, hallOnes ▸ hnot, hnot, seqOk_iff_sum.trans ?_⟩
  have hseq := b.seq.isLt
  have hcomp := b.comp.isLt
  omega

theorem header_iff {b : Block} : header b = true ↔ valid b = true ∧ b.seq = 0x00#8 := by
  rw [header, Bool.and_eq_true, beq_iff_eq]

theorem data_iff {b : Block} : data b = true ↔ valid b = true ∧ b.seq ≠ 0x00#8 := by
  rw [data, Bool.and_eq_true, bne_iff_ne]

/-- Settles O21: `header_iff` and `data_iff` ask opposite things of the sequence. -/
theorem headerAndDataSplitTheValidPackets : Obligations.HeaderAndDataSplitTheValidPackets := by
  refine fun b => ⟨header_iff, data_iff, fun ⟨hheader, hdata⟩ => ?_, fun hvalid => ?_⟩
  · exact (data_iff.mp hdata).2 (header_iff.mp hheader).2
  · rw [header, data, hvalid]
    exact ⟨rfl, rfl⟩

/-! ### Loading and reading the packet's fields (R80 to R83) -/

theorem exec_wrPktSeq (w : Word) (s : State) : exec (.wrPktSeq w) s =
    commit { s.block with seq := BitVec.ofNat 8 (w.toNat % 256), comp := BitVec.ofNat 8 (w.toNat / 256 % 256) } s := by
  rw [exec, execWrPktSeq, seqField_eq_ofNat, compField_eq_ofNat]

/-- The sequence check on two loaded bytes is their sum. -/
theorem seqOk_ofNat_iff {b : Block} {q c : Nat} (hq : q < 256) (hc : c < 256) :
    seqOk { b with seq := BitVec.ofNat 8 q, comp := BitVec.ofNat 8 c } = true ↔ q + c = 255 := by
  rw [seqOk_iff_sum, BitVec.toNat_ofNat, BitVec.toNat_ofNat, Nat.mod_eq_of_lt hq, Nat.mod_eq_of_lt hc]

/-- Settles O16: after the load of `exec_wrPktSeq` the check is that the operand's two low bytes add up to 255, and twice
a byte is even. -/
theorem writePktSeqLoadsBothBytes : Obligations.WritePktSeqLoadsBothBytes := by
  refine ⟨decode_wordWrite .pktSeq, fun w s => ⟨_, exec_wrPktSeq w s, rfl, ?_⟩⟩
  have hcheck := seqOk_ofNat_iff (b := s.block) (Nat.mod_lt w.toNat (by decide : 0 < 256))
    (Nat.mod_lt (w.toNat / 256) (by decide : 0 < 256))
  refine ⟨fun h => hcheck.mpr ?_, fun h => hcheck.mpr ?_, fun h => Bool.eq_false_iff.mpr fun hok => ?_⟩
  · omega
  · omega
  · have := hcheck.mp hok
    omega

/-- Settles O17: each read returns its register's word (`exec_readOf`). -/
theorem readsOfPktSeqAndPktRxcrcReturnWhatWasLoaded : Obligations.ReadsOfPktSeqAndPktRxcrcReturnWhatWasLoaded := by
  refine ⟨decode_wordRead .pktSeq, decode_wordRead .pktRxcrc, fun s => ⟨?_, ?_⟩⟩
  · rw [← readPktSeq_eq_ofNat]
    exact exec_readOf .pktSeq s
  · rw [BitVec.ofNat_toNat]
    exact exec_readOf .pktRxcrc s

theorem exec_wrPktRxcrc (w : Word) (s : State) : exec (.wrPktRxcrc w) s =
    commit { s.block with rxcrc := BitVec.ofNat 16 (w.toNat % 65536) } s := by
  rw [exec, execWrPktRxcrc, rxcrcField_eq_ofNat]

/-- Settles O18: the swapped bytes load as `second ++ first` (`append_bytes_eq_ofNat`, `append_eq_append_swap_iff`). -/
theorem writePktRxcrcLoadsTheChecksum : Obligations.WritePktRxcrcLoadsTheChecksum := by
  refine ⟨decode_wordWrite .pktRxcrc, fun w s => ⟨_, exec_wrPktRxcrc w s, rfl, fun first second hcrc hw => ?_⟩⟩
  have hrxcrc : BitVec.ofNat 16 (w.toNat % 65536) = second ++ first := by rw [hw, append_bytes_eq_ofNat]
  rw [← append_eq_append_swap_iff, ← hcrc, ← hrxcrc]
  exact crcOk_iff

/-! ### The framing byte (R77, R86, R87) -/

/-- Settles O22: the byte loaded is the operand's number modulo 256 (`frameField_eq_ofNat`). -/
theorem writePktFrameLoadsTheFramingByte : Obligations.WritePktFrameLoadsTheFramingByte := by
  refine ⟨decode_wordWrite .pktFrame, fun w s => ?_⟩
  rw [exec, execWrPktFrame, frameField_eq_ofNat]
  rfl

/-- A framing byte of none of the four named values is of KIND OTHER (R77). -/
theorem kindOf_eq_other {f : Byte} (h : f ≠ 0x01#8 ∧ f ≠ 0x02#8 ∧ f ≠ 0x04#8 ∧ f ≠ 0x18#8) : kindOf f = .other := by
  obtain ⟨hsoh, hstx, heot, hcan⟩ := h
  exact (if_neg hsoh).trans ((if_neg hstx).trans ((if_neg heot).trans (if_neg hcan)))

theorem kindCode_le (k : Kind) : (kindCode k).toNat ≤ 4 := by cases k <;> decide

/-- The word of a byte of KIND OTHER is the byte alone: PLEN and KIND are 0 (R87). -/
theorem readPktFrame_of_other {b : Block} (h : kindOf b.frame = .other) :
    readReg .pktFrame b = b.frame.setWidth 32 := by
  have hword : readReg .pktFrame b = 0#24 ++ b.frame := by
    simp only [readReg, readPktFrame, plenField, kindField, h]
    rfl
  rw [hword, BitVec.setWidth_eq_append (by decide)]
  rfl

/-- The word of each class (R87). -/
theorem readPktFrame_eq (b : Block) : readReg .pktFrame b =
    if b.frame = 0x01#8 then 0x00800101#32
    else if b.frame = 0x02#8 then 0x04000202#32
    else if b.frame = 0x04#8 then 0x00000304#32
    else if b.frame = 0x18#8 then 0x00000418#32
    else b.frame.setWidth 32 := by
  split_ifs with hsoh hstx heot hcan
  · rw [readReg, readPktFrame, hsoh]
    rfl
  · rw [readReg, readPktFrame, hstx]
    rfl
  · rw [readReg, readPktFrame, heot]
    rfl
  · rw [readReg, readPktFrame, hcan]
    rfl
  · exact readPktFrame_of_other (kindOf_eq_other ⟨hsoh, hstx, heot, hcan⟩)

/-- Settles O23: the word of `readPktFrame_eq`; KIND and PLEN of the four named bytes by evaluation, of every other by
`kindOf_eq_other`. -/
theorem readPktFrameClassifiesTheFramingByte : Obligations.ReadPktFrameClassifiesTheFramingByte := by
  refine ⟨decode_wordRead .pktFrame, fun s => ?_, fun f => ⟨kindCode_le _, fun h => h ▸ ⟨rfl, rfl⟩,
    fun h => h ▸ ⟨rfl, rfl⟩, fun h => h ▸ ⟨rfl, rfl⟩, fun h => h ▸ ⟨rfl, rfl⟩, fun hother => ?_⟩⟩
  · have hread := exec_readOf .pktFrame s
    rw [readPktFrame_eq] at hread
    exact hread
  · rw [kindField, plenField, kindOf_eq_other hother]
    exact ⟨rfl, rfl⟩

end Sys2Proof.Machine

/-! The timeout counter: what an operation and a run do to `EN`, `MAX` and `COUNT` (R89, R90, R99, R110, R122), and its two
events and eight register operations (R88, R92 to R101). -/

namespace Sys2Proof

theorem Request.onOperation_of_no_op {α : Type} {r : Request} (h : ∀ i, decode r ≠ .op i) (a : α) (f : Instr → α) :
    r.onOperation a f = a := by
  cases hd : decode r with
  | op i => exact absurd hd (h i)
  | busError c => exact Request.onOperation_busError hd a f
  | refuse w => exact Request.onOperation_refuse hd a f

end Sys2Proof

namespace Sys2Proof.Machine

/-! ### One operation of a run, and what a run keeps of the block -/

/-- A request of a run either spells an operation, which runs, or leaves the block as it was (R10, R102, R104). -/
theorem perform_cases (s : State) (r : Request) :
    (∃ i, decode r = .op i ∧ exec i s = .next (perform s r)) ∨
    ((∀ i, decode r ≠ .op i) ∧ (perform s r).block = s.block) := by
  cases hd : decode r with
  | op i =>
    obtain ⟨b, v, he⟩ := exec_shape i s
    exact .inl ⟨i, rfl, perform_op hd he ▸ he⟩
  | busError c => exact .inr ⟨by simp, by rw [perform_busError hd, State.yielding_block]⟩
  | refuse w => exact .inr ⟨by simp, by rw [perform_refuse hd, State.yielding_block]⟩

/-- What every operation of a run keeps of the block, the run keeps. -/
theorem runOps_keeps {P : Block → Prop} {rs : List Request}
    (hkeeps : ∀ r ∈ rs, ∀ i s t, decode r = .op i → exec i s = .next t → P s.block → P t.block) {s : State}
    (hs : P s.block) : P (runOps s rs).block := by
  induction rs generalizing s with
  | nil => exact hs
  | cons r rs ih =>
    obtain ⟨hr, hrs⟩ := List.forall_mem_cons.mp hkeeps
    refine ih hrs ?_
    obtain ⟨i, hd, he⟩ | ⟨-, hb⟩ := perform_cases s r
    · exact hr i s _ hd he hs
    · exact hb ▸ hs

/-! ### Fields, flags and the saturating count as numbers -/

/-- Bit 0 of an operand as its number shows it (R94). -/
theorem enField_iff {w : Word} : enField w = true ↔ w.toNat % 2 = 1 := initField_iff

/-- Bit 1 of an operand as its number shows it (R94). -/
theorem clrField_iff {w : Word} : clrField w = true ↔ w.toNat / 2 % 2 = 1 := tickfClearField_iff

theorem exceeded_iff {b : Block} : exceeded b = true ↔ b.max.toNat < b.count.toNat := by
  rw [exceeded, BitVec.ult, decide_eq_true_iff]

theorem exceeded_eq_false_iff {b : Block} : exceeded b = false ↔ b.count.toNat ≤ b.max.toNat := by
  rw [← Bool.not_eq_true, exceeded_iff, Nat.not_lt]

theorem exceeded_of_max_allOnes {b : Block} (h : b.max = 0xFFFFFFFF#32) : exceeded b = false := by
  rw [exceeded_eq_false_iff, h]
  exact Nat.le_of_lt_succ b.count.isLt

/-- The count stops at 0xFFFFFFFF (R92). -/
theorem countUp_toNat_eq_min (c : Word) : (countUp c).toNat = min (c.toNat + 1) 0xFFFFFFFF := by
  by_cases h : c = 0xFFFFFFFF#32
  · rw [h]
    rfl
  · have hlt := (countUp c).isLt
    rw [countUp_toNat h] at hlt ⊢
    omega

theorem countUp_eq_ofNat (c : Word) : countUp c = BitVec.ofNat 32 (min (c.toNat + 1) 0xFFFFFFFF) := by
  rw [← countUp_toNat_eq_min, BitVec.ofNat_toNat, BitVec.setWidth_eq]

/-- TICKF weighs 2 and EXCEEDED 1 (R31). -/
theorem readTmoStatus_eq_ofNat (b : Block) : readReg .tmoStatus b =
    BitVec.ofNat 32 ((if b.tickf = true then 2 else 0) + (if b.max.toNat < b.count.toNat then 1 else 0)) := by
  simp only [readReg, readTmoStatus, ← exceeded_iff]
  cases b.tickf <;> cases exceeded b <;> rfl

theorem readTmoCtrl_eq (b : Block) : readReg .tmoCtrl b = if b.en = true then 0x00000001#32 else 0x00000000#32 := by
  rw [readReg, readTmoCtrl]
  cases b.en <;> rfl

/-! ### What an operation does to `EN`, `MAX` and `COUNT` -/

theorem exec_en {i : Instr} {s t : State} (h : exec i s = .next t) : t.block.en = i.enableAfter s.block.en := by
  cases i with cases h
  | wrCrcCtrl w => exact ite_block_leaves Block.en rfl
  | wrTmoStatus w => exact ite_block_leaves Block.en rfl
  | tick => exact ite_block_leaves Block.en rfl
  | act => exact ite_block_leaves Block.en rfl
  | _ => rfl

/-- What an operation can do to `MAX`: keep it, return it to its reset value, or load it by a write of TMO_MAX
(R96, R115). -/
theorem exec_max {i : Instr} {s t : State} (h : exec i s = .next t) :
    t.block.max = s.block.max ∨ (i = .reset ∧ t.block.max = Config.tmoMaxReset) ∨
    ∃ w, i = .wrTmoMax w ∧ t.block.max = w := by
  cases i with cases h
  | reset => exact .inr (.inl ⟨rfl, rfl⟩)
  | wrTmoMax w => exact .inr (.inr ⟨w, rfl, rfl⟩)
  | wrCrcCtrl w => exact .inl (ite_block_leaves Block.max rfl)
  | wrTmoStatus w => exact .inl (ite_block_leaves Block.max rfl)
  | tick => exact .inl (ite_block_leaves Block.max rfl)
  | act => exact .inl (ite_block_leaves Block.max rfl)
  | _ => exact .inl rfl

/-- What an operation can do to `COUNT`: count a TICK with `EN` = 1, clear it by an ACT with `EN` = 1, by RESET or by a
write of TMO_CTRL with the clear bit, or keep it (R99, R110). -/
theorem exec_count {i : Instr} {s t : State} (h : exec i s = .next t) :
    (i = .tick ∧ s.block.en = true ∧ t.block.count = countUp s.block.count) ∨
    (t.block.count = 0#32 ∧
      (i = .act ∧ s.block.en = true ∨ i = .reset ∨ ∃ w, i = .wrTmoCtrl w ∧ clrField w = true)) ∨
    (¬(i = .tick ∧ s.block.en = true) ∧ t.block.count = s.block.count) := by
  cases i with cases h
  | tick =>
    by_cases hen : s.block.en = true
    · exact .inl ⟨rfl, hen, congrArg Block.count (if_pos hen)⟩
    · exact .inr (.inr ⟨fun hc => hen hc.2, congrArg Block.count (if_neg hen)⟩)
  | act =>
    by_cases hen : s.block.en = true
    · exact .inr (.inl ⟨congrArg Block.count (if_pos hen), .inl ⟨rfl, hen⟩⟩)
    · exact .inr (.inr ⟨by simp, congrArg Block.count (if_neg hen)⟩)
  | wrTmoCtrl w =>
    by_cases hw : clrField w = true
    · exact .inr (.inl ⟨if_pos hw, .inr (.inr ⟨w, rfl, hw⟩)⟩)
    · exact .inr (.inr ⟨by simp, if_neg hw⟩)
  | reset => exact .inr (.inl ⟨rfl, .inr (.inl rfl)⟩)
  | wrCrcCtrl w => exact .inr (.inr ⟨by simp, ite_block_leaves Block.count rfl⟩)
  | wrTmoStatus w => exact .inr (.inr ⟨by simp, ite_block_leaves Block.count rfl⟩)
  | _ => exact .inr (.inr ⟨by simp, rfl⟩)

/-- Settles O34: a step that takes an operation does to `COUNT` what `exec_count` allows, and a tick that changes it is
not saturated; the others keep the block. -/
theorem onlyTheseOperationsChangeTheCount : Obligations.OnlyTheseOperationsChangeTheCount := by
  intro s s' h hne
  obtain ⟨-, rfl⟩ | ⟨r, rest, i, hp, hd, he⟩ | ⟨r, rest, c, -, -, rfl⟩ := step_cases h
  · exact absurd rfl hne
  · refine ⟨r, rest, hp, ?_⟩
    obtain ⟨rfl, hen, hcount⟩ | ⟨hzero, ⟨rfl, hen⟩ | rfl | ⟨w, rfl, hw⟩⟩ | ⟨-, hkept⟩ := exec_count he
    · have hunsaturated : s.block.count ≠ 0xFFFFFFFF#32 := fun hc => hne (hcount.trans (hc ▸ rfl))
      exact .inl ⟨hd, hen, hcount ▸ countUp_toNat hunsaturated⟩
    · exact .inr ⟨hzero, .inl ⟨hd, hen⟩⟩
    · exact .inr ⟨hzero, .inr (.inl hd)⟩
    · exact .inr ⟨hzero, .inr (.inr ⟨w, hd, clrField_iff.mp hw⟩)⟩
    · exact absurd hkept hne
  · exact absurd rfl hne

/-! ### Runs of the counter (R89, R90, R97, R122) -/

theorem exec_event_of_disabled {i : Instr} {s t : State} (hi : i.isEvent = true) (hen : s.block.en = false)
    (h : exec i s = .next t) : t.block = s.block := by
  cases i with cases h
  | tick => exact if_neg (Bool.eq_false_iff.mp hen)
  | act => exact if_neg (Bool.eq_false_iff.mp hen)
  | _ => cases hi

/-- Settles O39: an event leaves a block with `EN` = 0 as it was, and so does a run of them (`runOps_keeps`). -/
theorem whileDisabledEventsChangeNothing : Obligations.WhileDisabledEventsChangeNothing := by
  intro s rs hen hrs
  refine runOps_keeps (P := (· = s.block)) (fun r hr i u t hd he hu => ?_) rfl
  have hevent : i.isEvent = true := Request.onOperation_op hd false Instr.isEvent ▸ hrs r hr
  exact (exec_event_of_disabled hevent (hu ▸ hen) he).trans hu

theorem perform_en (s : State) (r : Request) : (perform s r).block.en = r.enableAfter s.block.en := by
  rw [Request.enableAfter]
  obtain ⟨i, hd, he⟩ | ⟨hno, hb⟩ := perform_cases s r
  · rw [Request.onOperation_op hd, exec_en he]
  · rw [Request.onOperation_of_no_op hno, hb]

/-- Where nothing clears the count, a request counts exactly when it is a TICK and `EN` = 1. -/
theorem perform_count {s : State} {r : Request} (hr : r.rearms = false) :
    (perform s r).block.count =
      if decode r = .op .tick ∧ s.block.en = true then countUp s.block.count else s.block.count := by
  obtain ⟨i, hd, he⟩ | ⟨hno, hb⟩ := perform_cases s r
  · rw [Request.rearms, Request.onOperation_op hd] at hr
    simp only [hd, Decoded.op.injEq]
    obtain ⟨rfl, hen, hcount⟩ | ⟨-, ⟨rfl, -⟩ | rfl | ⟨w, rfl, hw⟩⟩ | ⟨hno, hkept⟩ := exec_count he
    · rw [if_pos ⟨rfl, hen⟩, hcount]
    · cases hr
    · cases hr
    · exact absurd (hw.symm.trans hr) (by decide)
    · rw [if_neg hno, hkept]
  · rw [if_neg fun h => hno _ h.1, hb]

/-- Where nothing clears the count, a run adds its counted ticks, up to saturation (R89, R92). -/
theorem runOps_count_toNat {rs : List Request} (hrs : ∀ r ∈ rs, r.rearms = false) (s : State) :
    (runOps s rs).block.count.toNat = min (s.block.count.toNat + countedTicks s.block.en rs) 0xFFFFFFFF := by
  induction rs generalizing s with
  | nil => exact (Nat.min_eq_left (Nat.le_of_lt_succ s.block.count.isLt)).symm
  | cons r rs ih =>
    obtain ⟨hr, hrs⟩ := List.forall_mem_cons.mp hrs
    rw [runOps_cons, ih hrs, perform_en, perform_count hr, countedTicks]
    split
    · rw [countUp_toNat_eq_min]
      omega
    · rw [Nat.zero_add]

/-- Where nothing loads the threshold, a run keeps it. -/
theorem runOps_max {rs : List Request} (hrs : ∀ r ∈ rs, r.rearms = false) (s : State) :
    (runOps s rs).block.max = s.block.max := by
  refine runOps_keeps (P := (·.max = s.block.max)) (fun r hr i u t hd he hu => ?_) rfl
  have hrearms : i.rearms = false := Request.onOperation_op hd false Instr.rearms ▸ hrs r hr
  obtain hkept | ⟨rfl, -⟩ | ⟨w, rfl, -⟩ := exec_max he
  · exact hkept.trans hu
  · cases hrearms
  · cases hrearms

theorem assemble_tmoarm (m : Word) :
    Asm.assemble (.tmoarm m.toNat) = some [encode (.wrTmoMax m), encode (.wrTmoCtrl 0x3#32)] := by
  obtain ⟨-, -, -, -, -, -, -, harm, -⟩ := Asm.pseudoOperationsExpandAsListed
  exact harm m

/-- `tmoarm M` loads the threshold, and enables and clears the counter (R60). -/
theorem runOps_tmoarm_block {armed : List Request} {m : Word} (h : Asm.assemble (.tmoarm m.toNat) = some armed)
    (s : State) : (runOps s armed).block = { s.block with max := m, en := true, count := 0#32 } := by
  obtain rfl := Option.some.inj ((assemble_tmoarm m).symm.trans h)
  rw [runOps_cons, perform_op (decode_encode _) rfl, runOps_cons, perform_op (decode_encode _) rfl]
  rfl

/-- Settles O32: after `tmoarm M` the run keeps `MAX` = M and counts its ticks from 0 (`runOps_count_toNat`), and M + 1
ticks do not saturate the count. -/
theorem theThresholdTripsAtTickMaxPlusOne : Obligations.TheThresholdTripsAtTickMaxPlusOne := by
  intro s m armed rs hm harmed hrs b n
  have harm := runOps_tmoarm_block harmed s
  have hb : b = (runOps (runOps s armed) rs).block := congrArg State.block (runOps_append s armed rs)
  have hmax : b.max = m := by rw [hb, runOps_max hrs, harm]
  have hcount : b.count.toNat = min n 0xFFFFFFFF := by
    rw [hb, runOps_count_toNat hrs, harm]
    exact congrArg (min · _) (Nat.zero_add n)
  have hlt : m.toNat < 0xFFFFFFFF := by
    have hne : m.toNat ≠ 0xFFFFFFFF := fun h => hm (BitVec.eq_of_toNat_eq h)
    have := m.isLt
    omega
  rw [exceeded_iff, exceeded_eq_false_iff, hmax, hcount]
  omega

/-- Settles O27: each read returns its register's word (`exec_readOf`); RESET sets `MAX` to the open parameter, and only a
write of TMO_MAX sets it to another value (`exec_max`). -/
theorem readsOfTmoCtrlTmoMaxAndTmoCountReturnTheirWords :
    Obligations.ReadsOfTmoCtrlTmoMaxAndTmoCountReturnTheirWords := by
  refine ⟨decode_wordRead .tmoCtrl, decode_wordRead .tmoMax, decode_wordRead .tmoCount, fun s => ⟨?_,
    exec_readOf .tmoMax s, exec_readOf .tmoCount s⟩, rfl, fun s t rs hreset hrs => ?_⟩
  · rw [← readTmoCtrl_eq]
    exact exec_readOf .tmoCtrl s
  · have hstart : t.block.max = Config.tmoMaxReset := by
      cases hreset
      rfl
    have hmax : (runOps t rs).block.max = Config.tmoMaxReset := by
      refine runOps_keeps (P := (·.max = Config.tmoMaxReset)) (fun r hr i u v hd he hu => ?_) hstart
      obtain hkept | ⟨-, hloaded⟩ | ⟨w, rfl, -⟩ := exec_max he
      · exact hkept.trans hu
      · exact hloaded
      · exact absurd hd (hrs r hr w)
    rw [← hmax]
    exact exec_readOf .tmoMax (runOps t rs)

/-- `n + 1` TICKs in a row with `EN` = 1. -/
theorem runInstrs_replicate_tick_block {s : State} (hen : s.block.en = true) (n : Nat) :
    (runInstrs s (List.replicate (n + 1) .tick)).block =
      { s.block with tickf := true, count := BitVec.ofNat 32 (min (s.block.count.toNat + (n + 1)) 0xFFFFFFFF) } := by
  induction n generalizing s with
  | zero =>
    rw [List.replicate_succ, runInstrs_cons_of_exec (exec_tick_of_en hen), ← countUp_eq_ofNat]
    rfl
  | succ n ih =>
    have hsum : min (min (s.block.count.toNat + 1) 0xFFFFFFFF + (n + 1)) 0xFFFFFFFF =
        min (s.block.count.toNat + (n + 1 + 1)) 0xFFFFFFFF := by omega
    rw [List.replicate_succ, runInstrs_cons_of_exec (exec_tick_of_en hen), ih, State.yielding_block,
      countUp_toNat_eq_min, hsum]
    exact hen

/-- Settles O40, by induction on the ticks (`runInstrs_replicate_tick_block`). -/
theorem ticksCoalesceInTheFlagButNotInTheCount : Obligations.TicksCoalesceInTheFlagButNotInTheCount :=
  fun _ n hen => runInstrs_replicate_tick_block hen n

/-! ### The two events (R92, R93) -/

/-- An event descriptor with SIZE 00, whatever stands in the field no event looks at (R52). -/
theorem decode_eventNumber (sel : Byte) (w : Word) : decode ⟨0b00#2 ++ 0b10#2 ++ sel, w⟩ = decodeEvent 0b00#2 sel := by
  rw [decode_event (Request.cls_mk ..), Request.size_mk, Request.sel_mk]

/-- Settles O24: the count is raised by `countUp`, which saturates (`countUp_eq_ofNat`). -/
theorem tickCountsAndFlagsWhileEnabled : Obligations.TickCountsAndFlagsWhileEnabled := by
  refine ⟨decode_eventNumber 0#8, fun s => ?_⟩
  rw [← countUp_eq_ofNat]
  rfl

/-- Settles O25: with `EN` = 1 the count is cleared (`exec_act_of_en`), else the block is kept. -/
theorem activityClearsTheCountWhileEnabled : Obligations.ActivityClearsTheCountWhileEnabled := by
  refine ⟨decode_eventNumber 1#8, fun s => ?_⟩
  by_cases hen : s.block.en = true
  · rw [exec_act_of_en hen, if_pos hen]
    rfl
  · rw [if_neg hen]
    exact congrArg (commit · s) (if_neg hen)

/-! ### The register operations (R94, R96, R100, R101) and EXCEEDED (R88) -/

/-- Settles O26: the two fields are bits 0 and 1 of the operand (`enField_iff`, `clrField_iff`). -/
theorem writeTmoCtrlSetsEnableAndClears : Obligations.WriteTmoCtrlSetsEnableAndClears := by
  refine ⟨decode_wordWrite .tmoCtrl, fun w s => ?_⟩
  have hen : enField w = decide (w.toNat % 2 = 1) := by rw [Bool.eq_iff_iff, enField_iff, decide_eq_true_iff]
  rw [exec, execWrTmoCtrl, hen]
  simp only [clrField_iff]
  rfl

/-- Settles O28: EXCEEDED compares the count with the loaded threshold (`exceeded_iff`), and no count is above
0xFFFFFFFF. -/
theorem writeTmoMaxSetsTheThreshold : Obligations.WriteTmoMaxSetsTheThreshold :=
  ⟨decode_wordWrite .tmoMax, fun _ _ => ⟨_, rfl, rfl, fun h => exceeded_iff.mpr h, fun h => exceeded_of_max_allOnes h⟩⟩

/-- Settles O29: the read returns its register's word, whose bits are `readTmoStatus_eq_ofNat`. -/
theorem readTmoStatusReturnsExceededAndTickFlag : Obligations.ReadTmoStatusReturnsExceededAndTickFlag := by
  refine ⟨decode_wordRead .tmoStatus, fun s => ?_⟩
  rw [← readTmoStatus_eq_ofNat]
  exact exec_readOf .tmoStatus s

/-- Settles O30: the clear field is bit 1 of the operand (`tickfClearField_iff`). -/
theorem writeTmoStatusClearsTheTickFlag : Obligations.WriteTmoStatusClearsTheTickFlag := by
  refine ⟨decode_wordWrite .tmoStatus, fun w s => ?_⟩
  have hclear : decide (w.toNat / 2 % 2 = 0) = !tickfClearField w := by
    rw [Bool.eq_iff_iff, decide_eq_true_iff, Bool.not_eq_true', ← Bool.not_eq_true, tickfClearField_iff]
    omega
  rw [exec, execWrTmoStatus, hclear]
  cases tickfClearField w
  · rw [Bool.not_false, Bool.and_true]
    rfl
  · rw [Bool.not_true, Bool.and_false]
    rfl

/-- Settles O31: EXCEEDED is the comparison of the two numbers (`exceeded_iff`), in which `EN` has no part. -/
theorem exceededIsTheUnsignedComparison : Obligations.ExceededIsTheUnsignedComparison :=
  fun _ => ⟨exceeded_iff, fun _ => rfl, exceeded_of_max_allOnes, exceeded_eq_false_iff.mpr (Nat.zero_le _),
    fun _ h => exceeded_eq_false_iff.mpr h⟩

end Sys2Proof.Machine

/-! Bus errors, refused descriptors and the document's errors (R102 to R104, R109). -/

namespace Sys2Proof

/-! ### Which requests end in a bus error and which are refused (R52, R103, R104) -/

/-- An offset is aligned for a word access exactly when its number is a multiple of 4 (R52). -/
theorem extractLsb'_low_eq_zero_iff {sel : Byte} : sel.extractLsb' 0 2 = 0b00#2 ↔ sel.toNat % 4 = 0 := by
  rw [← BitVec.toNat_inj, BitVec.extractLsb'_toNat]
  rfl

/-- A bus request that is no word access to a register is a bus error of the first check it fails (R103). -/
theorem decode_of_failing_access {r : Request} (hcls : r.cls.toNat < 2) (hsize : r.size.toNat ≠ 3)
    (hreg : ∀ g : Reg, ¬(r.size = 2#2 ∧ r.sel = g.offset)) :
    decode r = .busError
      (if r.size.toNat < 2 then .badSize else if r.sel.toNat % 4 ≠ 0 then .misaligned else .unmapped) := by
  obtain ⟨access, hd⟩ := decode_bus hcls
  rw [hd]
  by_cases hnarrow : r.size.toNat < 2
  · rw [if_pos hnarrow, decodeBus_badSize hnarrow]
  have hword : r.size = 0b10#2 := BitVec.eq_of_toNat_eq (by
    have := r.size.isLt
    rw [BitVec.toNat_ofNat]
    omega)
  rw [if_neg hnarrow, hword]
  by_cases halign : r.sel.toNat % 4 = 0
  · rw [if_neg (not_not.mpr halign),
      decodeBus_unmapped (extractLsb'_low_eq_zero_iff.mpr halign) fun g hg => hreg g ⟨hword, hg.symm⟩]
  · rw [if_pos halign, decodeBus_misaligned (extractLsb'_low_eq_zero_iff.not.mpr halign)]

/-- An event descriptor with SIZE other than 00, or with an event number of 3 or more, is refused. -/
theorem decodeEvent_refuse {size : BitVec 2} {sel : Byte} (h : size ≠ 0#2 ∨ 3 ≤ sel.toNat) :
    ∃ why, decodeEvent size sel = .refuse why := by
  by_cases hsize : size = 0#2
  · have hsel : 3 ≤ sel.toNat := h.resolve_left (not_not.mpr hsize)
    have hne : ∀ n : Nat, n < 3 → sel ≠ BitVec.ofNat 8 n := by
      rintro n hn rfl
      rw [BitVec.toNat_ofNat] at hsel
      omega
    exact ⟨.reservedEvent, by
      rw [decodeEvent, if_neg (not_not.mpr hsize), if_neg (hne 0 (by decide)), if_neg (hne 1 (by decide)),
        if_neg (hne 2 (by decide))]⟩
  · exact ⟨.eventSize, if_pos hsize⟩

/-- The three shapes of R104 are refused. -/
theorem decode_refuse {r : Request} (h : r.cls = 3#2 ∨ (r.cls = 2#2 ∧ (r.size ≠ 0#2 ∨ 3 ≤ r.sel.toNat)) ∨
    (r.cls.toNat < 2 ∧ r.size = 3#2)) : ∃ why, decode r = .refuse why := by
  obtain hcls | ⟨hcls, hevent⟩ | ⟨hcls, hsize⟩ := h
  · exact ⟨_, decode_reservedClass hcls⟩
  · rw [decode_event hcls]
    exact decodeEvent_refuse hevent
  · obtain ⟨access, hd⟩ := decode_bus hcls
    exact ⟨_, by rw [hd, hsize, decodeBus_reservedSize]⟩

end Sys2Proof

namespace Sys2Proof.Machine

/-! ### The step on each (R102, R104, R106) -/

theorem exec_ne_fault (i : Instr) (s : State) (f : Fault) : exec i s ≠ .fault f := by
  obtain ⟨b, v, he⟩ := exec_shape i s
  simp [he]

/-- The step on a bus error records it and goes on with the block as it was (R102, R106). -/
theorem step_busError {s : State} {r : Request} {rest : List Request} {c : BusErrorCause} (hp : s.pending = r :: rest)
    (hd : decode r = .busError c) :
    step s = .next { s with pending := rest, outcomes := .err c :: s.outcomes } := by
  rw [step_cons hp, operate, hd]
  rfl

theorem step_refuse {s : State} {r : Request} {rest : List Request} {w : RefuseReason} (hp : s.pending = r :: rest)
    (hd : decode r = .refuse w) : step s = .refused (.reservedDescriptor w) := by
  rw [step_cons hp, operate, hd]
  rfl

/-- Settles O48: no operation faults (`exec_ne_fault`), and the step on an access that fails a check is `step_busError`
with the cause of `decode_of_failing_access`. -/
theorem aBusErrorChangesNothingAndTheRunGoesOn : Obligations.ABusErrorChangesNothingAndTheRunGoesOn :=
  ⟨rfl, exec_ne_fault, fun _ _ _ hp hcls hsize hreg => step_busError hp (decode_of_failing_access hcls hsize hreg)⟩

/-- A run takes no refusal mark away (R10). -/
theorem mem_refusalMarks_runOps {s : State} {w : RefuseReason} (h : w ∈ s.refusalMarks) (rs : List Request) :
    w ∈ (runOps s rs).refusalMarks := by
  obtain ⟨-, -, new, hmarks, -⟩ := marksAreKeptForEveryErrorAndNeverCleared s rs
  rw [hmarks]
  exact List.mem_append_right new h

/-- Settles O49: the three shapes are refused (`decode_refuse`), and the mark that records it stays
(`mem_refusalMarks_runOps`). -/
theorem aRefusedDescriptorHasNoMeaning : Obligations.ARefusedDescriptorHasNoMeaning := by
  intro s r rest hp hshape
  obtain ⟨why, hd⟩ := decode_refuse hshape
  refine ⟨why, step_refuse hp hd, perform_refuse hd, mem_refusalMarks_runOps ?_⟩
  rw [perform_refuse hd, State.refusalMarks_yielding]
  exact List.mem_cons_self

/-! ### The document's errors as register bits (R109) -/

/-- One bit of a word as its number shows it. -/
theorem getLsbD_iff_toNat {w : Word} {i : Nat} : w.getLsbD i = true ↔ w.toNat / 2 ^ i % 2 = 1 := by
  rw [← BitVec.testBit_toNat, Nat.testBit_eq_decide_div_mod_eq, decide_eq_true_iff]

theorem readTmoStatus_exceeded (b : Block) : (readReg .tmoStatus b).getLsbD 0 = exceeded b := by
  simp only [readReg, readTmoStatus, BitVec.getLsbD_setWidth, BitVec.getLsbD_append]
  simp

/-- KIND stands in bits 11:8 of PKT_FRAME (R26). -/
theorem readPktFrame_kind (b : Block) : (readReg .pktFrame b).extractLsb' 8 4 = kindField b.frame :=
  (BitVec.extractLsb'_append_eq_of_le (by decide)).trans BitVec.extractLsb'_append_eq_right

/-- No two kinds share a code (R77). -/
theorem kindCode_injective : Function.Injective kindCode := by
  intro k l
  cases k <;> cases l <;> decide

/-- The KIND a host reads tells the framing byte's kind. -/
theorem kindOf_frame_iff_toNat (b : Block) (k : Kind) :
    kindOf b.frame = k ↔ (readReg .pktFrame b).toNat / 256 % 16 = (kindCode k).toNat := by
  rw [← kindCode_injective.eq_iff, ← BitVec.toNat_inj, ← kindField, ← readPktFrame_kind, BitVec.extractLsb'_toNat,
    Nat.shiftRight_eq_div_pow]

/-- Settles O57: EXCEEDED and VALID are bits of their status words (`readTmoStatus_exceeded`, `readPktStatus_valid`), and
KIND tells CAN and OTHER from every other kind (`kindOf_frame_iff_toNat`). -/
theorem theDocumentsErrorsAreValuesTheHostReads : Obligations.TheDocumentsErrorsAreValuesTheHostReads := by
  refine fun b => ⟨?_, beq_iff_eq.trans (kindOf_frame_iff_toNat b .can), ?_,
    beq_iff_eq.trans (kindOf_frame_iff_toNat b .other)⟩
  · rw [Block.shows, ← readTmoStatus_exceeded, getLsbD_iff_toNat, Nat.pow_zero, Nat.div_one]
  · rw [Block.shows, Bool.not_eq_true', ← Bool.not_eq_true, ← readPktStatus_valid, getLsbD_iff_toNat]
    omega

end Sys2Proof.Machine

/-! What stands after RESET (R115, R116), and the CRC carried over where nothing initialises it (R120). -/

namespace Sys2Proof.Machine

/-! ### The counter stays at rest until it is enabled (R92, R94, R116) -/

/-- The timeout counter as RESET leaves it: disabled, with no tick counted and none flagged (R116). -/
def Block.CounterAtRest (b : Block) : Prop := b.en = false ∧ b.count = 0#32 ∧ b.tickf = false

/-- An operation that does not enable the counter leaves it at rest: a TICK is lost while `EN` = 0 (R92), and no other
operation counts or flags one. -/
theorem exec_keeps_counterAtRest {i : Instr} {s t : State} (hi : i.enableAfter false = false)
    (h : exec i s = .next t) (hs : s.block.CounterAtRest) : t.block.CounterAtRest := by
  obtain ⟨hen, hcount, htickf⟩ := hs
  have hdisabled : s.block.en ≠ true := Bool.eq_false_iff.mp hen
  refine ⟨by rw [exec_en h, hen, hi], ?_, ?_⟩
  · obtain ⟨-, henabled, -⟩ | ⟨hzero, -⟩ | ⟨-, hkept⟩ := exec_count h
    · exact absurd henabled hdisabled
    · exact hzero
    · exact hkept.trans hcount
  · obtain hkept | ⟨-, -, henabled⟩ | ⟨hcleared, -⟩ := exec_tickf h
    · exact hkept.trans htickf
    · exact absurd henabled hdisabled
    · exact hcleared

theorem runOps_keeps_counterAtRest {rs : List Request} (hrs : ∀ r ∈ rs, r.enables = false) {s : State}
    (hs : s.block.CounterAtRest) : (runOps s rs).block.CounterAtRest := by
  refine runOps_keeps (fun r hr i u t hd he hu => exec_keeps_counterAtRest ?_ he hu) hs
  exact Request.onOperation_op hd false (Instr.enableAfter false) ▸ hrs r hr

/-! ### RESET (R115) -/

theorem exec_reset (s : State) : exec .reset s = .next ({ s with block := Block.reset }.yielding (.ok none)) := rfl

theorem counterAtRest_reset : Block.reset.CounterAtRest := ⟨rfl, rfl, rfl⟩

/-- The two equal checksums of the reset block pass, its sequence bytes 0 and 0 do not (R115). -/
theorem readPktStatus_reset : readReg .pktStatus Block.reset = 0x00000002#32 := rfl

/-- The reset framing byte is of KIND OTHER (R115). -/
theorem readPktFrame_reset : readReg .pktFrame Block.reset = 0x00000000#32 := readPktFrame_of_other rfl

/-- A count of 0 is above no threshold, whatever the open parameter is (R88, R115). -/
theorem readTmoStatus_reset : readReg .tmoStatus Block.reset = 0x00000000#32 := by
  have hbelow : ¬ Block.reset.max.toNat < Block.reset.count.toNat := Nat.not_lt_zero _
  rw [readTmoStatus_eq_ofNat, if_neg hbelow]
  rfl

/-- Settles O3: RESET leaves the counter at rest (`counterAtRest_reset`), and the run keeps it there
(`runOps_keeps_counterAtRest`). -/
theorem noTickIsCountedAfterResetUntilEnabled : Obligations.NoTickIsCountedAfterResetUntilEnabled := by
  intro s t rs hreset hrs
  cases (exec_reset s).symm.trans hreset
  exact runOps_keeps_counterAtRest hrs counterAtRest_reset

/-- Settles O12: the run folds its bytes onto the CRC of the previous ones (`runOps_crc`, `crc16_append`). -/
theorem withoutInitTheCrcCarriesOver : Obligations.WithoutInitTheCrcCarriesOver := by
  intro s previous rs hprevious hrs
  rw [runOps_crc hrs, hprevious, crc16_append]

/-- Settles O2: RESET leaves `Block.reset`, whatever the block was (`exec_reset`), and its outcome OK is neither mark. -/
theorem resetOperationRestoresEveryElement : Obligations.ResetOperationRestoresEveryElement := by
  refine ⟨decode_eventNumber 2#8, fun s => ⟨exec_reset s, fun t ht => ?_⟩⟩
  cases (exec_reset s).symm.trans ht
  exact ⟨⟨readPktStatus_reset, readPktFrame_reset, readTmoStatus_reset⟩, ⟨_, exec_reset _, rfl⟩,
    State.faultMarks_yielding _ _, State.refusalMarks_yielding _ _⟩

end Sys2Proof.Machine

namespace Sys2Proof.Machine

/-! ### The duty at reset (R118) -/

theorem dutiful_of_pending_nil {s : State} (hp : s.pending = []) : s.dutiful = true := by
  rw [State.dutiful, hp, List.all_nil]

/-- The base case of `aDutifulMachineNeverStops`: no agent has presented a request yet. -/
theorem pending_reset : State.reset.pending = [] := rfl

/-- Settles O52: nothing is pending at reset (`pending_reset`), so no pending request breaks the duty. -/
theorem resetIsDutiful : Obligations.ResetIsDutiful := dutiful_of_pending_nil pending_reset

end Sys2Proof.Machine
